-- ==== Sys2Proof/Word.lean ====
section
/-! DEFINITION. The words the manual counts in: a byte, a two-byte word, a line time, and the level of a wire or an output. -/

namespace Sys2Proof

/-- One byte of a frame body, of the host port, or a one-byte number of the manual (a station ID, a group, a serial, a handle). -/
abbrev Byte := BitVec 8

/-- A two-byte word: a point mask, a levels word, an owners word, the seen summary (Formats). -/
abbrev Word16 := BitVec 16

/-- A line time: an unsigned 32-bit count of ticks that wraps to 0 (Nomenclature; R67). -/
abbrev Time := BitVec 32

/-- The level of an output point, an input or a wire. On the cue line LOW is dominant and read as 0, HIGH is recessive and
read as 1 (Nomenclature, "Dominant, recessive"). -/
inductive Level where
  | low
  | high
deriving DecidableEq, Repr

/-- Four like things, one for each trigger input TI0 to TI3. -/
structure Four (α : Type) where
  t0 : α
  t1 : α
  t2 : α
  t3 : α
deriving DecidableEq, Repr

end Sys2Proof
end

