-- ==== Sys2Proof/Config.lean ====
section
/-! DEFINITION. The manual's fixed quantities ("Principal quantities", the bit-timing table), and the one FREE value of the
model: in which order two blocks that act at one instant take their turns where the manual says "in either order". -/

namespace Sys2Proof.Config

/-- R1: capacity of the cue table, the provisional entry included. -/
def cueCapacity : Nat := 32
/-- R124: capacity of the send queue. -/
def sendCapacity : Nat := 8
/-- R128, R130: capacity of the issued list. -/
def issuedCapacity : Nat := 32
/-- R171: capacity of the notice queue, in records. -/
def noticeCapacity : Nat := 16
/-- R172: the dropped-notice count saturates here. -/
def droppedMax : Nat := 255
/-- R124's record: the losses of an entry saturate here. -/
def lossesMax : Nat := 255
/-- R162: the frames-heard count saturates here. -/
def framesHeardMax : Nat := 65535
/-- R142: the extra count of a capture stays here. -/
def extraMax : Nat := 15
/-- R142: the capture hold limit, in ticks. -/
def holdLimit : Nat := 4096
/-- R25, R28: the horizon, in ticks. -/
def horizon : Nat := 2 ^ 24
/-- R77: the largest offset that is slewed. -/
def slewLimit : Nat := 16
/-- R77: ticks for each tick of correction. -/
def slewSpan : Nat := 32
/-- R79: due times without an adoption that lose the reference. -/
def missLimit : Nat := 3
/-- R80: due times in HOLDOVER that lose synchronisation. -/
def holdoverLimit : Nat := 64
/-- R81: due times of the first-listen window. -/
def firstListenLimit : Nat := 4
/-- R163: due times unheard that make a peer SILENT. -/
def silenceLimit : Nat := 8
/-- R94: bit times of the idle gap. -/
def idleGap : Nat := 12
/-- R105, R106: the stuck limit and the stall limit, 2 ms, in microseconds. -/
def stuckLimit : Nat := 2000
/-- R116, R168: the largest body of a frame, in bytes. -/
def bodyMax : Nat := 24
/-- R155, R156: entries of the group list. -/
def groupsMax : Nat := 8
/-- R155: the default minimum lead. -/
def defaultMinLead : Nat := 32
/-- R181: the preset of the check accumulator. -/
def checkPreset : Word16 := 0xFFFF
/-- R181: the generator without its x^16 term. -/
def checkGenerator : Word16 := 0x1021

/-- Beacon period codes (Principal quantities; R71): 0 is 256 ticks, 1 is 512, 2 is 1024 and 3 is 2048. -/
def beaconPeriod (code : Nat) : Nat := 256 * 2 ^ code

/-- FREE VALUE (DESIGN CHOICE, log entry 3). Which of two blocks acts first where both act at one instant and the manual
says "in either order" (R121, R160, R171). `true` is the second named block first. It has no body: nothing can be proved of
the order it gives. It is read only where the two orders differ in what the host can see, once for each use of the
counter `State.order`. -/
opaque freeOrder : Nat → Bool

end Sys2Proof.Config
end

