-- ==== Sys2Proof/Syntax.lean ====
section
/-! DEFINITION. The commands and events of the block: one constructor of `Instr` for each row of spec/opcode_table.json. A host
command carries the argument bytes the host shifts in (Formats, "SPI transaction"); an event of the line, of a pin or of the
crystal carries what the station observes there. -/

namespace Sys2Proof

/-- The two wires of the cue line. -/
inductive Wire where
  | pace
  | data
deriving DecidableEq, Repr

/-- A low run of a wire: `risen` says that the run began with a rise and a fall which no row showed (R105, log entry 38). -/
structure LowRun where
  wire : Wire
  risen : Bool
deriving DecidableEq, Repr

/-- The strap pins as they stand at one instant (R151): ID5 to ID0 as a number, TKE and RATE. -/
structure Straps where
  id : BitVec 6
  tke : Level
  rate : Level
deriving DecidableEq, Repr

/-- One command or event: a row of spec/opcode_table.json. -/
inductive Instr where
  /-- SETUP (R156): the argument bytes, group count first. -/
  | setup (args : List Byte)
  /-- JOIN (R157). -/
  | join
  /-- LEAVE (R159). -/
  | leave
  /-- RESTART (R154), with the strap levels that stand when it is taken (R151). -/
  | restart (straps : Straps)
  /-- SEND (R126): the argument bytes, handle first. -/
  | send (args : List Byte)
  /-- PURGE (R135). -/
  | purge
  /-- NEXT_NOTICE (R177). -/
  | nextNotice
  /-- STATUS (R178). -/
  | status
  /-- TIME (R83). -/
  | time
  /-- SET_POINTS (R48): the argument bytes, those of the mask and those of the levels. -/
  | setPoints (mask levels : List Byte)
  /-- GET_POINTS (R49). -/
  | getPoints
  /-- LIST_CUE (R15): the argument byte, the index. -/
  | listCue (args : List Byte)
  /-- DROP_CUE (R16): the argument bytes, those of the issuer and those of the serial. -/
  | dropCue (issuer serial : List Byte)
  /-- LOAD_TRIGGER (R146): the argument bytes, input first. -/
  | loadTrigger (args : List Byte)
  /-- READ_CAPTURE (R144): the argument byte, the input number. -/
  | readCapture (args : List Byte)
  /-- PEER (R164): the argument byte, the station ID. -/
  | peer (args : List Byte)
  /-- UNKNOWN_COMMAND (R168): the command byte. -/
  | unknownCommand (code : Byte)
  /-- TRANSACTION_BEGIN (R167): NCS falls. -/
  | transactionBegin
  /-- TRANSACTION_CUT_SHORT (R169): NCS rises before the command is taken, after `bits` bits were clocked in. -/
  | transactionCutShort (bits : Nat)
  /-- FULL_RESET (R153): power-on, or NRST falls. -/
  | fullReset
  /-- RESET_RELEASE (R153): NRST is released, with the strap levels that stand there. -/
  | resetRelease (straps : Straps)
  /-- TICK (R67): a tick of the crystal. -/
  | tick
  /-- SLEWED_TICK (R77): the tick that brings the slew phase to 32. -/
  | slewedTick
  /-- FIRING (R53): the next due item of the advance in hand is an entry, and it fires. -/
  | firing
  /-- RESTORE (R64): the next due item of the advance in hand is a restore, and it is applied. -/
  | restore
  /-- AGE_OUT (R130): issued entries the advance in hand goes beyond leave the list. -/
  | ageOut
  /-- HOLD_LIMIT (R143): the advance in hand reaches the hold end of this input. -/
  | holdLimit (input : Fin 4)
  /-- GAP_END (R149): the advance in hand reaches the gap end of this input. -/
  | gapEnd (input : Fin 4)
  /-- BEACON_DUE_TIME (R72): the due time the advance reached is taken. -/
  | beaconDueTime
  /-- REFERENCE_LOST (R79): the due time that brings the miss count to 3. -/
  | referenceLost
  /-- HOLDOVER_LIMIT (R80): the due time that brings the holdover count to 64. -/
  | holdoverLimit
  /-- FIRST_LISTEN_EXPIRY (R81): the due time that brings the window count to 4. -/
  | firstListenExpiry
  /-- PEER_SILENCE (R163): the due time that brings this station's silence count to 8. -/
  | peerSilence (id : Byte)
  /-- TRIGGER_EDGE (R141): an input changes to this level. -/
  | triggerEdge (input : Fin 4) (level : Level)
  /-- OFFER_HEAD (R131): the send unit checks its head and offers it. -/
  | offerHead
  /-- OFFER_BEACON (R85): the beacon in the slot is offered. -/
  | offerBeacon
  /-- START_CONDITION (R93): DATA falls while PACE is high, made by this station's offered attempt (`own`) or by another. -/
  | startCondition (own : Bool)
  /-- ARBITRATION_LOST (R98). -/
  | arbitrationLost
  /-- EVALUATION_POINT (R120). -/
  | evaluationPoint
  /-- ANSWER_READY (R100). -/
  | answerReady
  /-- END_CONDITION (R121): DATA rises while PACE is high. -/
  | endCondition
  /-- LINE_IDLE (R94): both wires high for 12 bit times. -/
  | lineIdle
  /-- PACE_FALL_IN_IDLE (R94). -/
  | paceFallInIdle
  /-- STUCK_LOW (R105): this low run of a wire reaches 2 ms. -/
  | stuckLow (run : LowRun)
  /-- STALL (R106): no edge of PACE for 2 ms. -/
  | stall
  /-- FRAMING (R107): a change or sample that breaks the frame protocol. -/
  | framing
  /-- RECOVER_END (R103): both wires are high. -/
  | recoverEnd
  /-- BIT_SAMPLE (R92): PACE rises inside a frame, with this level on DATA. -/
  | bitSample (data : Level)
  /-- PACE_FALL (R91): PACE falls. -/
  | paceFall
  /-- HALF_PERIOD_END (R91): this pacer's own half-period runs out. -/
  | halfPeriodEnd
  /-- TRANSACTION_END (R167): NCS rises after the command was taken. -/
  | transactionEnd
  /-- IDLE_COUNT_RESET (R94): this wire is seen low in WAIT_IDLE. -/
  | idleCountReset (wire : Wire)
deriving DecidableEq, Repr

end Sys2Proof
end

