-- ==== Sys2Proof/Machine/State.lean ====
section
/-! DEFINITION. Everything the manual says the station holds, as plain data, block by block, and its value at a full reset.
Each structure follows the record table of its chapter; the rules that give the reset values are cited at `State.reset`. -/

namespace Sys2Proof.Machine

/-! ### Names used by several blocks -/

/-- Scope mode (Nomenclature, "Scope"; Formats, bit SCOPE MODE: 0 GROUP, 1 STATION). -/
inductive ScopeMode where
  | group
  | station
deriving DecidableEq, Repr

/-- A scope: a mode with the number carried in the SCOPE field. -/
structure Scope where
  mode : ScopeMode
  number : Byte
deriving DecidableEq, Repr

/-- The key of a cue (R2). -/
structure Key where
  issuer : Byte
  serial : Byte
deriving DecidableEq, Repr

/-- Action op (R5); a pulse op carries its width. -/
inductive Op where
  | raise
  | lower
  | invert
  | pulseHigh (width : BitVec 12)
  | pulseLow (width : BitVec 12)
deriving DecidableEq, Repr

/-- One action: an op and the output point it names (R5). -/
structure Action where
  op : Op
  point : Fin 16
deriving DecidableEq, Repr

/-- A repeat part (R6): period 1 to 65535 ticks, count 1 to 255. -/
structure Repeat where
  period : BitVec 16
  count : Byte
deriving DecidableEq, Repr

/-- What a well-formed CUE body says (R26). -/
structure CueBody where
  serial : Byte
  fireTime : Time
  rep : Option Repeat
  actions : List Action
deriving DecidableEq, Repr

/-- Origin of an entry (R7). -/
inductive Origin where
  | line
  | own
deriving DecidableEq, Repr

/-! ### Station control (Joining the Line and Peers) -/

inductive StationState where
  | halted
  | setup
  | listen
  | active
  | silent
deriving DecidableEq, Repr

inductive Rate where
  | kbit125
  | kbit500
deriving DecidableEq, Repr

inductive Selection where
  | off
  | rise
  | fall
  | both
deriving DecidableEq, Repr

/-- The SETUP record (R155). -/
structure SetupRecord where
  groups : List Byte
  lineMask : Word16
  initialLevels : Word16
  periodCode : Byte
  minLead : Nat
  enableMask : Word16
  sendAttempts : Nat
  selections : Four Selection
  gaps : Four Nat
deriving DecidableEq, Repr

/-- The station record. -/
structure Station where
  state : StationState
  id : Byte
  eligible : Bool
  rate : Rate
  setup : SetupRecord
  leavePending : Bool
  dupPending : Bool
deriving DecidableEq, Repr

/-! ### Line clock (Line Time) -/

inductive ClockState where
  | unsynced
  | following
  | reference
  | holdover
deriving DecidableEq, Repr

inductive WindowState where
  | off
  | running
  | expired
deriving DecidableEq, Repr

/-- The BEACON frame between its evaluation point and its outcome (R75). -/
structure BeaconRecord where
  sender : Byte
  carriedTime : Time
  carriedState : ClockState
  markTime : Time
deriving DecidableEq, Repr

/-- The clock record. `markTime` is the line time latched at the last start condition (R74, R93); `slewSinceMark` is what
slewed ticks added to the plain count since that mark (R74). -/
structure Clock where
  lineTime : Time
  state : ClockState
  refId : Option Byte
  slewRemainder : Int
  slewPhase : Nat
  beaconPeriod : Nat
  nextDue : Option Time
  missCount : Nat
  holdoverCount : Nat
  window : WindowState
  windowCount : Nat
  beacon : Option BeaconRecord
  markTime : Time
  slewSinceMark : Int
deriving DecidableEq, Repr

/-! ### Cue table and firing unit -/

/-- A cue table entry. Its state PROVISIONAL or ARMED is the place it stands in: `CueTable.provisional` or
`CueTable.armed`. -/
structure CueEntry where
  key : Key
  fireTime : Time
  scope : Scope
  actions : List Action
  rep : Option Repeat
  origin : Origin
  withdrawPending : Bool
deriving DecidableEq, Repr

inductive OfferKind where
  | cue
  | withdraw
deriving DecidableEq, Repr

/-- A slot answer. -/
inductive Answer where
  | take
  | veto
  | none
deriving DecidableEq, Repr

inductive OfferEffect where
  | newEntry
  | held
  | marked
  | none
deriving DecidableEq, Repr

/-- The offer record (Offer Agreement). -/
structure OfferRecord where
  kind : OfferKind
  key : Key
  answer : Answer
  effect : OfferEffect
deriving DecidableEq, Repr

/-- The cue table: armed entries in table order, head first (R10), the provisional entry (R9), and the offer record. -/
structure CueTable where
  armed : List CueEntry
  provisional : Option CueEntry
  offer : Option OfferRecord
deriving DecidableEq, Repr

/-! ### Points and pulse list (Firing and Output Points) -/

inductive Owner where
  | host
  | line
deriving DecidableEq, Repr

/-- A pending restore (the pulse list's slot of a point, when pending). -/
structure Restore where
  point : Fin 16
  time : Time
  level : Level
deriving DecidableEq, Repr

/-- The sixteen points as the manual's words (bit n is CPn: an owners word 1 is LINE, a levels word 1 is HIGH; R182), and
the pending restores, at most one for a point (R61). -/
structure Points where
  owners : Word16
  levels : Word16
  pulses : List Restore
deriving DecidableEq, Repr

/-! ### Line interface (The Cue Line) -/

inductive LineState where
  | off
  | waitIdle
  | idle
  | sending
  | receiving
  | answering
  | recover
deriving DecidableEq, Repr

inductive Role where
  | sender
  | receiver
  | none
deriving DecidableEq, Repr

inductive Arbitration where
  | none
  | contending
  | won
  | lost
deriving DecidableEq, Repr

inductive Stretch where
  | none
  | holding
  | released
deriving DecidableEq, Repr

/-- Which of its own half-periods a pacer is timing (R91). -/
inductive HalfPeriod where
  | none
  | low
  | high
deriving DecidableEq, Repr

/-- A wire's low time in microseconds and its reported flag (R105). -/
structure LowTimer where
  time : Nat
  reported : Bool
deriving DecidableEq, Repr

/-- The line interface record, with what it drives (`drivesPace`, `drivesData`: pulling the wire low), what it last saw on the
wires, the bits of its own frame (`tx`), and the bits sampled (`rx`, in order: header, body, check; the receive buffer).
`driving` says whether the station drives in the frame on the line (R90, R158); `answered` whether the decoder's answer has
arrived (R100); `heldEnd` keeps the slot values of an end condition seen before that (R100). -/
structure Line where
  state : LineState
  role : Role
  arbitration : Arbitration
  position : Option Nat
  frameLength : Option Nat
  ownAnswer : Answer
  stretch : Stretch
  takeSlot : Option Level
  vetoSlot : Option Level
  idleCount : Nat
  paceLow : LowTimer
  dataLow : LowTimer
  stallTime : Nat
  rx : List Bool
  tx : List Bool
  halfPeriod : HalfPeriod
  drivesPace : Bool
  drivesData : Bool
  paceWire : Level
  dataWire : Level
  driving : Bool
  answered : Bool
  heldEnd : Option (Level × Level)
deriving DecidableEq, Repr

/-! ### Frame decoder (Frames and Reception) -/

inductive FrameOwner where
  | lineClock
  | cueTable
  | hostPort
  | none
deriving DecidableEq, Repr

inductive CheckStatus where
  | pending
  | intact
  | failed
deriving DecidableEq, Repr

inductive HeaderStatus where
  | pending
  | good
  | kind
  | form
deriving DecidableEq, Repr

/-- The decoder record. `answer` is `none` while PENDING. -/
structure Decoder where
  kind : Option (BitVec 3)
  owner : FrameOwner
  sender : Option Byte
  scopeMode : Option ScopeMode
  scopeNumber : Option Byte
  length : Option Nat
  checkAcc : Word16
  checkStatus : CheckStatus
  headerStatus : HeaderStatus
  addressed : Bool
  ownFrame : Bool
  foreignOwnId : Bool
  answer : Option Answer
deriving DecidableEq, Repr

/-! ### Send unit (Sending) -/

inductive Source where
  | host
  | trigger (input : Fin 4)
deriving DecidableEq, Repr

inductive SendKind where
  | withdraw
  | cue
  | message
deriving DecidableEq, Repr

inductive SendOutcome where
  | accepted
  | refused
  | unheard
  | broken
  | notSynced
  | expired
  | purged
  | silenced
deriving DecidableEq, Repr

/-- The outcome of one attempt on the line (R102, R132). -/
inductive AttemptOutcome where
  | accepted
  | refused
  | unheard
  | broken
  | lost
deriving DecidableEq, Repr

/-- A send entry. `retire` is the retire mark PURGE; `inFlight` is the state IN_FLIGHT. -/
structure SendEntry where
  handle : Byte
  source : Source
  kind : SendKind
  scope : Scope
  body : List Byte
  serial : Option Byte
  attemptsLeft : Nat
  losses : Nat
  brokenSeen : Bool
  retire : Bool
  inFlight : Bool
deriving DecidableEq, Repr

/-- An entry of the issued list. -/
structure Issued where
  serial : Byte
  scope : Scope
  lastFire : Time
deriving DecidableEq, Repr

/-- The beacon slot (R85). -/
inductive BeaconSlot where
  | empty
  | queued
  | inFlight
deriving DecidableEq, Repr

/-- What stands offered to the line interface and has not yet started (R97, R131). -/
inductive Offered where
  | none
  | head
  | beacon
deriving DecidableEq, Repr

structure SendUnit where
  queue : List SendEntry
  counter : Byte
  issued : List Issued
  slot : BeaconSlot
  offered : Offered
deriving DecidableEq, Repr

/-! ### Trigger unit (Trigger Inputs) -/

inductive Edge where
  | rise
  | fall
deriving DecidableEq, Repr

/-- A capture record; the hold end is present while HELD. -/
inductive Capture where
  | empty
  | held (time : Time) (edge : Edge) (extra : Nat) (holdEnd : Time)
  | expired (time : Time) (edge : Edge) (extra : Nat)
deriving DecidableEq, Repr

structure Template where
  scope : Scope
  lead : BitVec 16
  rep : Option Repeat
  actions : List Action
deriving DecidableEq, Repr

/-- The input record. -/
structure TriggerInput where
  selection : Selection
  gap : Nat
  level : Level
  capture : Capture
  template : Option Template
  gapEnd : Option Time
deriving DecidableEq, Repr

/-! ### Peer table -/

inductive Presence where
  | unknown
  | present
  | silent
deriving DecidableEq, Repr

structure PeerRecord where
  presence : Presence
  lastHeard : Time
  framesHeard : Nat
  silenceCount : Nat
  beaconSender : Bool
deriving DecidableEq, Repr

/-! ### Host port (Host Port and Notices) -/

inductive RefusalReason where
  | form
  | keyConflict
  | tooLate
  | tooFar
  | full
deriving DecidableEq, Repr

inductive MissedCause where
  | listening
  | silent
  | unsynced
deriving DecidableEq, Repr

inductive RemovalCause where
  | withdrawn
  | dropped
deriving DecidableEq, Repr

inductive ClockCause where
  | adopted
  | ownBeacon
  | yielded
  | newReference
  | stepped
  | referenceLost
  | holdoverLimit
  | leftActive
deriving DecidableEq, Repr

inductive LineErrorCause where
  | stuckLow
  | stall
  | framing
  | kind
  | form
deriving DecidableEq, Repr

inductive TriggerOutcome where
  | queued
  | droppedFull
  | droppedUnsynced
  | droppedState
  | cleared
deriving DecidableEq, Repr

inductive StationCause where
  | reset
  | restart
  | joined
  | synced
  | firstListen
  | leave
  | duplicateId
deriving DecidableEq, Repr

/-- The 13 notice classes, in the order of Formats. -/
inductive NoticeClass where
  | sendDone
  | cueArmed
  | cueFired
  | cueRemoved
  | offerRefused
  | offerMissed
  | message
  | clock
  | peer
  | lineError
  | trigger
  | station
  | configMismatch
deriving DecidableEq, Repr

/-- A notice record: its class and the fields that the rule of its class gives. -/
inductive Notice where
  /-- R138 -/
  | sendDone (handle : Byte) (source : Source) (kind : SendKind) (serial : Byte) (outcome : SendOutcome)
      (attempts losses : Nat) (issued : Bool) (time : Time)
  /-- R33 -/
  | cueArmed (key : Key) (fireTime : Time) (scope : Scope) (actionCount : Nat) (rep : Option Repeat) (origin : Origin) (time : Time)
  /-- R59 -/
  | cueFired (key : Key) (scheduled actual : Time) (late : Bool) (skipped repeatsLeft repeatsSkipped : Nat) (last : Bool)
  /-- R18 -/
  | cueRemoved (key : Key) (cause : RemovalCause) (fireTime : Time) (count : Byte) (origin : Origin)
  /-- R30 -/
  | offerRefused (kind : OfferKind) (key : Key) (reason : RefusalReason) (fireTime now : Time)
  /-- R31 -/
  | offerMissed (kind : OfferKind) (key : Key) (cause : MissedCause) (fireTime : Time)
  /-- R175 -/
  | message (sender : Byte) (scope : Scope) (time : Time) (payload : List Byte)
  /-- R88 -/
  | clock (cause : ClockCause) (previous new : ClockState) (refId : Option Byte) (offset : Int) (stepped : Bool)
      (carried : ClockState) (time : Time)
  /-- R165 -/
  | peer (id : Byte) (previous new : Presence) (lastHeard : Time) (framesHeard : Nat) (time : Time)
  /-- R109 -/
  | lineError (cause : LineErrorCause) (wire : Option Wire) (lineState : LineState) (position : Option Nat) (role : Role)
      (kind : Option (BitVec 3)) (sender : Option Byte) (time : Time)
  /-- R150 -/
  | trigger (input : Fin 4) (outcome : TriggerOutcome) (serial : Byte) (edge : Option Edge) (edgeTime fireTime time : Time)
  /-- R161 -/
  | station (previous : Option StationState) (new : StationState) (cause : StationCause) (kind : Option (BitVec 3)) (id : Byte)
      (time : Time)
  /-- R82 -/
  | configMismatch (sender carriedCode ownCode : Byte) (time : Time)
deriving DecidableEq, Repr

/-- Status codes, in the order of their bytes (R170, R182). -/
inductive Status where
  | ok
  | wrongState
  | full
  | form
  | notFound
  | busy
  | empty
deriving DecidableEq, Repr

/-- A status and the result bytes that follow it. -/
structure Response where
  status : Status
  results : List Byte
deriving DecidableEq, Repr

inductive Phase where
  | waiting
  | command
  | arguments
  | results
  | done
deriving DecidableEq, Repr

/-- The commands of the host port (Formats). -/
inductive CommandName where
  | setup
  | join
  | leave
  | restart
  | send
  | purge
  | nextNotice
  | status
  | time
  | setPoints
  | getPoints
  | listCue
  | dropCue
  | loadTrigger
  | readCapture
  | peer
deriving DecidableEq, Repr

/-- The record kept for a MESSAGE frame on the line (R174). -/
structure Reservation where
  sender : Byte
  scope : Scope
deriving DecidableEq, Repr

/-- The port record, with the argument bytes collected in ARGUMENTS (`args`) and the bytes of the response already shifted out in
RESULTS (`shifted`), which R167 has the engine keep. -/
structure Port where
  phase : Phase
  command : Option CommandName
  argsExpected : Nat
  args : List Byte
  response : Option Response
  shifted : Nat
  notices : List Notice
  reservation : Option Reservation
  dropped : Nat
  seen : Word16
deriving DecidableEq, Repr

/-! ### Pins, and what one event leaves for the same instant -/

/-- Input pins the station samples at an instant other than the event that changes them: NRST, NCS and TI0 to TI3. -/
structure Pins where
  nrst : Level
  ncs : Level
  ti : Four Level
deriving DecidableEq, Repr

/-- An advance of line time as the line clock hands it to its readers (R70): from line time `base`, by `size` ticks. -/
structure Advance where
  base : Time
  size : Nat
deriving DecidableEq, Repr

/-- Model's own: what the last event has set going at the same instant and no step has yet taken (log entry 2).
`advance`: the advance handed to the readers. `due`: a beacon due time was reached (R71). `arbLost`: the bit just sampled lost
the arbitration (R98). `evaluate`: the bit just sampled was the last check bit (R113). -/
structure Work where
  advance : Option Advance
  due : Bool
  arbLost : Bool
  evaluate : Bool
deriving DecidableEq, Repr

/-- The station. `order` counts the uses of the free value `Config.freeOrder` (model's own); `pending` is the queue of
commands and events that wait, first in, first out. -/
structure State where
  pins : Pins
  station : Station
  clock : Clock
  cues : CueTable
  points : Points
  line : Line
  decoder : Decoder
  send : SendUnit
  inputs : Four TriggerInput
  peers : List PeerRecord
  port : Port
  work : Work
  order : Nat
  pending : List Instr
deriving DecidableEq, Repr

/-- No command and no event of the manual stops the station: `Fault` has no constructor. -/
inductive Fault where
deriving DecidableEq, Repr

/-- Why a step answers nothing. -/
inductive Refusal where
  /-- The dispatcher: a row of the table that has no meaning yet. Safe: nothing is claimed of it. No arm uses it. -/
  | notModelled (mnemonic : String)
deriving DecidableEq, Repr

/-! ### Values after a reset -/

/-- The default SETUP record (R155). -/
def SetupRecord.default : SetupRecord :=
  { groups := [], lineMask := 0, initialLevels := 0, periodCode := 2, minLead := Config.defaultMinLead,
    enableMask := 0x1FFF, sendAttempts := 3, selections := ⟨.off, .off, .off, .off⟩, gaps := ⟨0, 0, 0, 0⟩ }

/-- R68. -/
def Clock.reset : Clock :=
  { lineTime := 0, state := .unsynced, refId := none, slewRemainder := 0, slewPhase := 0,
    beaconPeriod := Config.beaconPeriod 2, nextDue := none, missCount := 0, holdoverCount := 0, window := .off,
    windowCount := 0, beacon := none, markTime := 0, slewSinceMark := 0 }

/-- R19, and the offer record's "empty after a full reset and after RESTART". -/
def CueTable.reset : CueTable := { armed := [], provisional := none, offer := none }

/-- R45: every point HOST-owned and LOW, the pulse list empty. -/
def Points.reset : Points := { owners := 0, levels := 0, pulses := [] }

/-- A wire that is not low. -/
def LowTimer.clear : LowTimer := { time := 0, reported := false }

/-- R103. R103 names no value for the frame length, and the model gives it none (log entry 43). -/
def Line.reset : Line :=
  { state := .off, role := .none, arbitration := .none, position := none, frameLength := none, ownAnswer := .none,
    stretch := .none, takeSlot := none, vetoSlot := none, idleCount := 0, paceLow := .clear, dataLow := .clear,
    stallTime := 0, rx := [], tx := [], halfPeriod := .none, drivesPace := false, drivesData := false,
    paceWire := .high, dataWire := .high, driving := false, answered := false, heldEnd := none }

/-- R110: the empty decoder record. -/
def Decoder.reset : Decoder :=
  { kind := none, owner := .none, sender := none, scopeMode := none, scopeNumber := none, length := none,
    checkAcc := Config.checkPreset, checkStatus := .pending, headerStatus := .pending, addressed := false,
    ownFrame := false, foreignOwnId := false, answer := none }

/-- R125. -/
def SendUnit.reset : SendUnit := { queue := [], counter := 0, issued := [], slot := .empty, offered := .none }

/-- R140. -/
def TriggerInput.reset : TriggerInput :=
  { selection := .off, gap := 0, level := .low, capture := .empty, template := none, gapEnd := none }

/-- R140, for the four inputs. -/
def resetInputs : Four TriggerInput := ⟨.reset, .reset, .reset, .reset⟩

/-- R162. -/
def PeerRecord.reset : PeerRecord :=
  { presence := .unknown, lastHeard := 0, framesHeard := 0, silenceCount := 0, beaconSender := false }

/-- R162: one record for each station ID 1 to 62, in that order. -/
def resetPeers : List PeerRecord := List.replicate 62 .reset

/-- R179. -/
def Port.reset : Port :=
  { phase := .waiting, command := none, argsExpected := 0, args := [], response := none, shifted := 0, notices := [],
    reservation := none, dropped := 0, seen := 0 }

/-- Nothing left over from an event. -/
def Work.none : Work := { advance := Option.none, due := false, arbLost := false, evaluate := false }

/-- The station record while a full reset lasts: the SETUP record at its defaults, both pending marks no (R153). The station
state and the strap values have no value before the first release: DESIGN CHOICE, log entry 4. -/
def Station.reset : Station :=
  { state := .halted, id := 0, eligible := false, rate := .kbit125, setup := .default, leavePending := false,
    dupPending := false }

/-- A full reset in force (R153): NRST low, every block at its full-reset value. `RESET_RELEASE` ends it. The levels of NCS and
of the trigger inputs are the environment's: DESIGN CHOICE, log entry 5. -/
def State.reset : State :=
  { pins := { nrst := .low, ncs := .high, ti := ⟨.low, .low, .low, .low⟩ }, station := .reset, clock := .reset,
    cues := .reset, points := .reset, line := .reset, decoder := .reset, send := .reset, inputs := resetInputs,
    peers := resetPeers, port := .reset, work := .none, order := 0, pending := [] }

end Sys2Proof.Machine
end

