-- ==== Sys2Proof/Machine/Ops.lean ====
section
/-! DEFINITION. The shared operations: the relations of line time, byte and bit order, the updates of State, queuing a notice, and
taking two blocks' turns in either order. -/

namespace Sys2Proof.Machine

/-! ### Line time (Nomenclature; R67) -/

/-- (f − base) mod 2^32 (R10, R24, R51). -/
def distance (f base : Time) : Nat := (f - base).toNat

/-- "A is after B" (Nomenclature): (A − B) mod 2^32 lies in 1 to 2^31 − 1. -/
def isAfter (a b : Time) : Bool := decide (1 ≤ distance a b) && decide (distance a b < 2 ^ 31)

/-- The test of a reader at an advance (R51, R143, R149): the distance, measured at the advance's base, lies from 0 to its size. -/
def Advance.reaches (adv : Advance) (t : Time) : Bool := decide (distance t adv.base ≤ adv.size)

/-- The test of ageing (R130): the distance lies from 0 to the size less one. -/
def Advance.passes (adv : Advance) (t : Time) : Bool := decide (distance t adv.base < adv.size)

/-- The line time after the advance. -/
def Advance.target (adv : Advance) : Time := adv.base + BitVec.ofNat 32 adv.size

/-! ### Bytes and bits: most significant first (Formats) -/

def bytes2 (w : Word16) : List Byte := [w.extractLsb' 8 8, w.extractLsb' 0 8]

def bytes4 (t : Time) : List Byte := [t.extractLsb' 24 8, t.extractLsb' 16 8, t.extractLsb' 8 8, t.extractLsb' 0 8]

def word2 (hi lo : Byte) : Word16 := hi ++ lo

def word4 (b3 b2 b1 b0 : Byte) : Time := (b3 ++ b2 : BitVec 16) ++ (b1 ++ b0 : BitVec 16)

/-- The bits of a field, most significant bit first. -/
def bitsOf {n : Nat} (v : BitVec n) : List Bool := (List.range n).map v.getMsbD

/-- The number a run of bits spells, most significant bit first. -/
def natOfBits (bs : List Bool) : Nat := bs.foldl (fun acc b => 2 * acc + b.toNat) 0

/-- The bytes a run of bits spells, `n` of them. -/
def bytesOfBits : Nat → List Bool → List Byte
  | 0, _ => []
  | n + 1, bs => BitVec.ofNat 8 (natOfBits (bs.take 8)) :: bytesOfBits n (bs.drop 8)

/-- A level as the bit it is read as (Nomenclature). -/
def levelBit : Level → Bool
  | .low => false
  | .high => true

/-! ### The four inputs -/

def fourGet {α : Type} (f : Four α) (i : Fin 4) : α :=
  match i with
  | 0 => f.t0
  | 1 => f.t1
  | 2 => f.t2
  | 3 => f.t3

def fourSet {α : Type} (f : Four α) (i : Fin 4) (x : α) : Four α :=
  match i with
  | 0 => { f with t0 := x }
  | 1 => { f with t1 := x }
  | 2 => { f with t2 := x }
  | 3 => { f with t3 := x }

def fourMap {α β : Type} (g : α → β) (f : Four α) : Four β := ⟨g f.t0, g f.t1, g f.t2, g f.t3⟩

/-! ### One update for each block -/

def State.withPins (s : State) (x : Pins) : State := { s with pins := x }
def State.withStation (s : State) (x : Station) : State := { s with station := x }
def State.withClock (s : State) (x : Clock) : State := { s with clock := x }
def State.withCues (s : State) (x : CueTable) : State := { s with cues := x }
def State.withPoints (s : State) (x : Points) : State := { s with points := x }
def State.withLine (s : State) (x : Line) : State := { s with line := x }
def State.withDecoder (s : State) (x : Decoder) : State := { s with decoder := x }
def State.withSend (s : State) (x : SendUnit) : State := { s with send := x }
def State.withInputs (s : State) (x : Four TriggerInput) : State := { s with inputs := x }
def State.withPeers (s : State) (x : List PeerRecord) : State := { s with peers := x }
def State.withPort (s : State) (x : Port) : State := { s with port := x }
def State.withWork (s : State) (x : Work) : State := { s with work := x }
def State.withOrder (s : State) (x : Nat) : State := { s with order := x }
def State.withPending (s : State) (x : List Instr) : State := { s with pending := x }

/-! ### Views -/

/-- NRST is low: a full reset is in force (R153). -/
def State.inReset (s : State) : Bool := s.pins.nrst == .low

/-- FOLLOWING, REFERENCE or HOLDOVER (Nomenclature, "Synced"). -/
def State.synced (s : State) : Bool := s.clock.state != .unsynced

/-- LISTEN, ACTIVE or SILENT: the states after JOIN. -/
def Station.joined (t : Station) : Bool :=
  match t.state with
  | .listen => true
  | .active => true
  | .silent => true
  | .halted => false
  | .setup => false

/-- A frame is on the line for this station (R107): SENDING, RECEIVING or ANSWERING. -/
def Line.inFrame (l : Line) : Bool :=
  match l.state with
  | .sending => true
  | .receiving => true
  | .answering => true
  | .off => false
  | .waitIdle => false
  | .idle => false
  | .recover => false

/-- The owner of a point. -/
def Points.owner (p : Points) (i : Fin 16) : Owner := if p.owners.getLsbD i.val then .line else .host

/-- The level of a point, which is the level of its CP output. -/
def Points.level (p : Points) (i : Fin 16) : Level := if p.levels.getLsbD i.val then .high else .low

/-- The points with a bit set or cleared. -/
def setBit (w : Word16) (i : Fin 16) (b : Bool) : Word16 :=
  if b then w ||| (1#16 <<< i.val) else w &&& ~~~(1#16 <<< i.val)

def Points.setLevel (p : Points) (i : Fin 16) (v : Level) : Points := { p with levels := setBit p.levels i (levelBit v) }

/-! ### The notice queue (R171 to R173, R176) -/

def Notice.cls : Notice → NoticeClass
  | .sendDone .. => .sendDone
  | .cueArmed .. => .cueArmed
  | .cueFired .. => .cueFired
  | .cueRemoved .. => .cueRemoved
  | .offerRefused .. => .offerRefused
  | .offerMissed .. => .offerMissed
  | .message .. => .message
  | .clock .. => .clock
  | .peer .. => .peer
  | .lineError .. => .lineError
  | .trigger .. => .trigger
  | .station .. => .station
  | .configMismatch .. => .configMismatch

/-- The class's place in the list of Formats: its byte, its bit in the enable mask and its bit in the seen summary. -/
def NoticeClass.index : NoticeClass → Nat
  | .sendDone => 0
  | .cueArmed => 1
  | .cueFired => 2
  | .cueRemoved => 3
  | .offerRefused => 4
  | .offerMissed => 5
  | .message => 6
  | .clock => 7
  | .peer => 8
  | .lineError => 9
  | .trigger => 10
  | .station => 11
  | .configMismatch => 12

/-- The PORT mark's bit in the seen summary. -/
def portMark : Nat := 15

/-- R155, R172: SEND_DONE, MESSAGE and STATION are always enabled; before JOIN every class is; after it the frozen mask decides. -/
def Station.enables (t : Station) (c : NoticeClass) : Bool :=
  match c with
  | .sendDone => true
  | .message => true
  | .station => true
  | _ => !t.joined || t.setup.enableMask.getLsbD c.index

/-- Records used: those in the queue, and one more while the reservation is HELD (R171). -/
def Port.used (p : Port) : Nat := p.notices.length + (if p.reservation.isSome then 1 else 0)

/-- A record is free (R171). -/
def Port.hasFree (p : Port) : Bool := decide (p.used < Config.noticeCapacity)

def Port.mark (p : Port) (bit : Nat) : Port := { p with seen := p.seen ||| (1#16 <<< bit) }

/-- One more notice dropped, saturating (R172). -/
def Port.drop (p : Port) : Port := { p with dropped := min Config.droppedMax (p.dropped + 1) }

/-- R172: what the host port does with a notice. -/
def Port.push (p : Port) (enabled : Bool) (n : Notice) : Port :=
  if enabled then
    if (p.mark n.cls.index).hasFree then { p.mark n.cls.index with notices := p.notices ++ [n] }
    else (p.mark n.cls.index).drop
  else p.mark n.cls.index

/-- Queue a notice (R172). -/
def notify (n : Notice) (s : State) : State := s.withPort (s.port.push (s.station.enables n.cls) n)

/-- Queue notices in the order given. -/
def notifyAll (ns : List Notice) (s : State) : State := ns.foldl (fun s n => notify n s) s

/-- NIRQ (R176): low while the notice queue holds at least one record. -/
def State.nirq (s : State) : Level := if s.port.notices = [] then .high else .low

/-! ### Two blocks at one instant -/

/-- Two blocks' reactions to one instant, "in either order" (R121, R160, R171). They touch different state; the order shows only at
the host port. Where it shows, the free value `Config.freeOrder` decides, once for each such instant (log entry 3). -/
def eitherOrder (f g : State → State) (s : State) : State :=
  if (g (f s)).port = (f (g s)).port then g (f s)
  else if Config.freeOrder s.order then f (g (s.withOrder (s.order + 1)))
  else g (f (s.withOrder (s.order + 1)))

end Sys2Proof.Machine
end

