-- ==== Sys2Proof/Machine/Operands.lean ====
section
/-! DEFINITION. Operand forms: CUE bodies (R26, Formats), scopes, the SETUP record's bytes, and how many argument bytes a host
command takes (R168). -/

namespace Sys2Proof.Machine

/-! ### CUE bodies -/

/-- Op codes (Formats): 0 RAISE, 1 LOWER, 2 INVERT, 3 PULSE_HIGH, 4 PULSE_LOW. -/
def Op.code : Op → BitVec 3
  | .raise => 0
  | .lower => 1
  | .invert => 2
  | .pulseHigh _ => 3
  | .pulseLow _ => 4

/-- An action word: op in bits 15 to 13, point in bits 12 to 9, bits 8 to 0 zero. -/
def Action.word (a : Action) : Word16 := (a.op.code ++ BitVec.ofNat 4 a.point.val : BitVec 7) ++ (0 : BitVec 9)

/-- A width word: bits 15 to 12 zero. -/
def widthWord (w : BitVec 12) : Word16 := (0 : BitVec 4) ++ w

/-- An action's bytes: the action word, and the width word for a pulse. -/
def Action.bytes (a : Action) : List Byte :=
  match a.op with
  | .pulseHigh w => bytes2 a.word ++ bytes2 (widthWord w)
  | .pulseLow w => bytes2 a.word ++ bytes2 (widthWord w)
  | .raise => bytes2 a.word
  | .lower => bytes2 a.word
  | .invert => bytes2 a.word

def actionsBytes (as : List Action) : List Byte := as.flatMap Action.bytes

/-- The repeat part's three bytes, or none. -/
def repeatBytes : Option Repeat → List Byte
  | none => []
  | some r => bytes2 r.period ++ [r.count]

/-- Control byte: bit 7 repeat present, bits 2 to 0 action count. -/
def controlByte (rep : Option Repeat) (count : Nat) : Byte :=
  (if rep.isSome then 0x80#8 else 0#8) ||| BitVec.ofNat 8 count

/-- Control, repeat part, actions and widths, as LIST_CUE reports them and a CUE body ends. -/
def planBytes (rep : Option Repeat) (as : List Action) : List Byte :=
  controlByte rep as.length :: (repeatBytes rep ++ actionsBytes as)

/-- A CUE body's bytes. -/
def encodeCue (b : CueBody) : List Byte := b.serial :: (bytes4 b.fireTime ++ planBytes b.rep b.actions)

/-- The width of a pulse (R26): bits 15 to 12 zero, and not 0. -/
def parseWidth (hi lo : Byte) : Option (BitVec 12) :=
  if hi.extractLsb' 4 4 = 0 ∧ word2 hi lo ≠ 0 then some ((word2 hi lo).extractLsb' 0 12) else none

/-- The point an action word names. -/
def actionPoint (w : Word16) : Fin 16 := Fin.ofNat 16 (w.extractLsb' 9 4).toNat

/-- Exactly `n` actions, and nothing after them (R26). -/
def parseActions : Nat → List Byte → Option (List Action)
  | 0, [] => some []
  | 0, _ :: _ => none
  | _ + 1, [] => none
  | _ + 1, [_] => none
  | n + 1, hi :: lo :: rest =>
    let w := word2 hi lo
    if w.extractLsb' 0 9 ≠ 0 then none
    else if w.extractLsb' 13 3 = 0 then (parseActions n rest).map (⟨.raise, actionPoint w⟩ :: ·)
    else if w.extractLsb' 13 3 = 1 then (parseActions n rest).map (⟨.lower, actionPoint w⟩ :: ·)
    else if w.extractLsb' 13 3 = 2 then (parseActions n rest).map (⟨.invert, actionPoint w⟩ :: ·)
    else if w.extractLsb' 13 3 = 3 ∨ w.extractLsb' 13 3 = 4 then
      match rest with
      | wh :: wl :: rest' =>
        match parseWidth wh wl with
        | some width =>
          (parseActions n rest').map
            (⟨if w.extractLsb' 13 3 = 3 then .pulseHigh width else .pulseLow width, actionPoint w⟩ :: ·)
        | none => none
      | _ => none
    else none

/-- A repeat part (R26): neither period nor count is 0. -/
def parseRepeat (ph pl count : Byte) : Option Repeat :=
  if word2 ph pl ≠ 0 ∧ count ≠ 0 then some ⟨word2 ph pl, count⟩ else none

/-- Spare bits 6 to 3 zero and an action count of 1 to 4 (R26). -/
def controlOk (c : Byte) : Bool :=
  decide (c.extractLsb' 3 4 = 0) && decide (1 ≤ (c.extractLsb' 0 3).toNat) && decide ((c.extractLsb' 0 3).toNat ≤ 4)

/-- The part of a CUE body from the control byte on. -/
def parsePlan : List Byte → Option (Option Repeat × List Action)
  | [] => none
  | c :: rest =>
    if controlOk c then
      if c.getLsbD 7 then
        match rest with
        | ph :: pl :: count :: rest' =>
          match parseRepeat ph pl count with
          | some r => (parseActions (c.extractLsb' 0 3).toNat rest').map (fun as => (some r, as))
          | none => none
        | _ => none
      else (parseActions (c.extractLsb' 0 3).toNat rest).map (fun as => (none, as))
    else none

/-- R26: a well-formed CUE body, read field by field, ending exactly at its length and no longer than a frame's body. -/
def parseCue (body : List Byte) : Option CueBody :=
  if body.length ≤ Config.bodyMax then
    match body with
    | serial :: f3 :: f2 :: f1 :: f0 :: plan =>
      (parsePlan plan).map (fun p => ⟨serial, word4 f3 f2 f1 f0, p.1, p.2⟩)
    | _ => none
  else none

/-- A pulse's width is not 0 (R5). -/
def Action.ok (a : Action) : Bool :=
  match a.op with
  | .pulseHigh w => w != 0
  | .pulseLow w => w != 0
  | .raise => true
  | .lower => true
  | .invert => true

/-- A CUE body that a frame can carry: 1 to 4 actions, no width, period or count of 0, no longer than a frame's body (R5, R6, R26). -/
def CueBody.ok (b : CueBody) : Bool :=
  decide (1 ≤ b.actions.length) && decide (b.actions.length ≤ 4) && b.actions.all Action.ok &&
    (match b.rep with | some r => r.period != 0 && r.count != 0 | none => true) &&
    decide ((encodeCue b).length ≤ Config.bodyMax)

/-- The serial a body carries, 0 when it is too short (R26, R30). -/
def bodySerial (body : List Byte) : Byte := body.headD 0

/-- The fire time a CUE body carries, 0 when it is too short (R26, R30). -/
def bodyFireTime : List Byte → Time
  | _ :: f3 :: f2 :: f1 :: f0 :: _ => word4 f3 f2 f1 f0
  | _ => 0

/-! ### Scopes -/

/-- Scope mode code (Formats). -/
def ScopeMode.code : ScopeMode → Byte
  | .group => 0
  | .station => 1

/-- The scope two argument bytes name: GROUP 0 to 254 or STATION 1 to 62 (R126, R146). -/
def parseScope (mode number : Byte) : Option Scope :=
  if mode = 0 ∧ number ≠ 255 then some ⟨.group, number⟩
  else if mode = 1 ∧ number ≠ 0 ∧ number.toNat ≤ 62 then some ⟨.station, number⟩
  else none

/-! ### The shape of a host command's arguments (R167, R168) -/

/-- What the port makes of the argument bytes shifted in: still collecting, taken with these arguments, or taken at a length field out
of its range, the last of its first `used` bytes, and answered FORM. Bytes beyond those are no arguments. While it collects, `missing`
is what is still to arrive as far as the bytes in hand tell: up to the next byte that fixes the shape (log entry 41). -/
inductive Shape where
  | collecting (missing : Nat)
  | taken (args : List Byte)
  | refused (used : Nat)
deriving DecidableEq, Repr

/-- `n` argument bytes are called for. -/
def exactly (n : Nat) (args : List Byte) : Shape :=
  if args.length < n then .collecting (n - args.length) else .taken (args.take n)

/-- An argument byte by its place, 0 first. -/
def byteAt (args : List Byte) (k : Nat) : Byte := args.getD k 0

/-- SETUP: the group count, then that many groups and 22 bytes more. Before the count has arrived it alone is expected (log entry
41). -/
def setupShape (args : List Byte) : Shape :=
  match args with
  | [] => .collecting 1
  | count :: _ => if Config.groupsMax < count.toNat then .refused 1 else exactly (23 + count.toNat) args

/-- Bytes of `n` actions with their widths, as far as the ops are known: an action whose op is 3 or 4 has two more. -/
def actionsLength : Nat → List Byte → Nat
  | 0, _ => 0
  | n + 1, hi :: _ :: rest =>
    if hi.extractLsb' 5 3 = 3 ∨ hi.extractLsb' 5 3 = 4 then 4 + actionsLength n (rest.drop 2)
    else 2 + actionsLength n rest
  | n + 1, [hi] => (if hi.extractLsb' 5 3 = 3 ∨ hi.extractLsb' 5 3 = 4 then 4 else 2) + 2 * n
  | n + 1, [] => 2 * (n + 1)

/-- A control byte at place `at_` (0 first), then the repeat part if flagged and the actions it counts. A count above 4 is
refused there; at a count of 0 the command is taken there and the repeat flag is not read. -/
def planShape (at_ : Nat) (args : List Byte) : Shape :=
  match args.drop at_ with
  | [] => .collecting (at_ + 1 - args.length)
  | c :: rest =>
    if 4 < (c.extractLsb' 0 3).toNat then .refused (at_ + 1)
    else if (c.extractLsb' 0 3).toNat = 0 then .taken (args.take (at_ + 1))
    else
      let rep := if c.getLsbD 7 then 3 else 0
      exactly (at_ + 1 + rep + actionsLength (c.extractLsb' 0 3).toNat (rest.drop rep)) args

/-- SEND: handle, kind, scope mode, scope, and what the kind calls for. The kind byte fixes the shape. -/
def sendShape (args : List Byte) : Shape :=
  match args with
  | _ :: kind :: rest =>
    if kind = 1 then exactly 5 args
    else if kind = 2 then planShape 8 args
    else if kind = 3 then
      match rest with
      | _ :: _ :: len :: _ => if Config.bodyMax < len.toNat then .refused 5 else exactly (5 + len.toNat) args
      | _ => .collecting (5 - args.length)
    else .refused 2
  | _ => .collecting (2 - args.length)

/-- LOAD_TRIGGER: input, scope mode, scope, lead (2), control and what it calls for. -/
def loadTriggerShape (args : List Byte) : Shape := planShape 5 args

/-- The codes of Formats. -/
def CommandName.code : CommandName → Byte
  | .setup => 0x10
  | .join => 0x11
  | .leave => 0x12
  | .restart => 0x13
  | .send => 0x20
  | .purge => 0x21
  | .nextNotice => 0x30
  | .status => 0x31
  | .time => 0x32
  | .setPoints => 0x40
  | .getPoints => 0x41
  | .listCue => 0x50
  | .dropCue => 0x51
  | .loadTrigger => 0x60
  | .readCapture => 0x61
  | .peer => 0x70

def commandNames : List CommandName :=
  [.setup, .join, .leave, .restart, .send, .purge, .nextNotice, .status, .time, .setPoints, .getPoints, .listCue, .dropCue,
   .loadTrigger, .readCapture, .peer]

/-- The command that a command byte names (R167; Formats). -/
def namedBy (b : Byte) : Option CommandName := commandNames.find? (fun c => c.code == b)

/-- A command byte that names a command. -/
def knownCode (b : Byte) : Bool := (namedBy b).isSome

/-! ### The SETUP record's bytes (R155, R156; Formats) -/

/-- Trigger selection (Formats): 0 OFF, 1 RISE, 2 FALL, 3 BOTH. -/
def parseSelection (b : Byte) : Option Selection :=
  if b = 0 then some .off else if b = 1 then some .rise else if b = 2 then some .fall else if b = 3 then some .both else none

def selectionByte : Selection → Byte
  | .off => 0
  | .rise => 1
  | .fall => 2
  | .both => 3

/-- A number in two bytes. -/
def numberBytes (n : Nat) : List Byte := bytes2 (BitVec.ofNat 16 n)

/-- The argument bytes of the SETUP command that carries a record (Formats). -/
def SetupRecord.bytes (r : SetupRecord) : List Byte :=
  BitVec.ofNat 8 r.groups.length :: (r.groups ++ (bytes2 r.lineMask ++ bytes2 r.initialLevels ++ [r.periodCode] ++
    numberBytes r.minLead ++ bytes2 r.enableMask ++ [BitVec.ofNat 8 r.sendAttempts] ++
    [selectionByte r.selections.t0, selectionByte r.selections.t1, selectionByte r.selections.t2, selectionByte r.selections.t3] ++
    numberBytes r.gaps.t0 ++ numberBytes r.gaps.t1 ++ numberBytes r.gaps.t2 ++ numberBytes r.gaps.t3))

/-- R155: a gap of 0 to 65535 ticks for each input. -/
def SetupRecord.gapsOk (r : SetupRecord) : Bool :=
  decide (r.gaps.t0 < 65536) && decide (r.gaps.t1 < 65536) && decide (r.gaps.t2 < 65536) && decide (r.gaps.t3 < 65536)

/-- R156: the group list. -/
def groupsOk (gs : List Byte) : Bool :=
  decide (gs.length ≤ Config.groupsMax) && gs.all (fun g => g != 0 && g != 255) && decide gs.Nodup

/-- R156: the numbers of a record. -/
def SetupRecord.ok (r : SetupRecord) : Bool :=
  groupsOk r.groups && decide (r.periodCode.toNat ≤ 3) && decide (8 ≤ r.minLead) && decide (r.minLead ≤ 1023) &&
    decide (1 ≤ r.sendAttempts) && decide (r.sendAttempts ≤ 8)

/-- The 22 bytes after the groups. -/
def parseSetupTail (groups : List Byte) : List Byte → Option SetupRecord
  | [m1, m0, l1, l0, code, d1, d0, e1, e0, att, s0, s1, s2, s3, g01, g00, g11, g10, g21, g20, g31, g30] =>
    match parseSelection s0, parseSelection s1, parseSelection s2, parseSelection s3 with
    | some a, some b, some c, some d =>
      some { groups := groups, lineMask := word2 m1 m0, initialLevels := word2 l1 l0, periodCode := code,
             minLead := (word2 d1 d0).toNat, enableMask := word2 e1 e0, sendAttempts := att.toNat,
             selections := ⟨a, b, c, d⟩,
             gaps := ⟨(word2 g01 g00).toNat, (word2 g11 g10).toNat, (word2 g21 g20).toNat, (word2 g31 g30).toNat⟩ }
    | _, _, _, _ => none
  | _ => none

/-- R156: the record a SETUP command carries, if it is well formed. -/
def parseSetup : List Byte → Option SetupRecord
  | [] => none
  | count :: rest =>
    match parseSetupTail (rest.take count.toNat) (rest.drop count.toNat) with
    | some r => if r.ok then some r else none
    | none => none

end Sys2Proof.Machine
end

