-- ==== Sys2Proof/Decode.lean ====
section
/-! DEFINITION. The decoder of the opcode table's words, and the host port's own command bytes. spec/opcode_table.json gives no row any
bits: its rows are commands and events, and no word spells one. The bytes of a transaction do name its command (R167, R168). -/

namespace Sys2Proof

/-- The command that a word spells by the table's bits. No row of the table has bits, so no word spells a command. -/
def decodeTableWord (_nbits _w : Nat) : Option Instr := none

/-- The row of a command, with these argument bytes; RESTART with the strap levels that stand when it is taken (R151). -/
def commandRow (straps : Straps) (name : Machine.CommandName) (args : List Byte) : Instr :=
  match name with
  | .setup => .setup args
  | .join => .join
  | .leave => .leave
  | .restart => .restart straps
  | .send => .send args
  | .purge => .purge
  | .nextNotice => .nextNotice
  | .status => .status
  | .time => .time
  | .setPoints => .setPoints (args.take 2) (args.drop 2)
  | .getPoints => .getPoints
  | .listCue => .listCue args
  | .dropCue => .dropCue (args.take 1) (args.drop 1)
  | .loadTrigger => .loadTrigger args
  | .readCapture => .readCapture args
  | .peer => .peer args

/-- The row that the bytes on MOSI spell, from the fall of NCS on: the command byte names the command, and one that names none is
UNKNOWN_COMMAND (R167, R168). Bytes after a command without arguments are those of further rows. -/
def commandOfBytes (straps : Straps) : List Byte → Option Instr
  | [] => none
  | code :: args =>
    match Machine.namedBy code with
    | some name => some (commandRow straps name args)
    | none => some (.unknownCommand code)

end Sys2Proof
end

