-- ==== Sys2Proof/Machine/Flags.lean ====
section
/-! DEFINITION. The flags the frame decoder computes of a frame: the check (R113, R181), the header status (R115, R116), the
addressed flag (R117), the owner (R111); and the frame a sender puts on the line (Formats). -/

namespace Sys2Proof.Machine

/-- One bit fed to the check accumulator (R181). -/
def checkFeed (acc : Word16) (b : Bool) : Word16 :=
  if b != acc.getLsbD 15 then (acc <<< 1) ^^^ Config.checkGenerator else acc <<< 1

/-- The accumulator after a run of bits from the preset (R181). -/
def checkOf (bs : List Bool) : Word16 := bs.foldl checkFeed Config.checkPreset

/-- The bits of header and body as they go onto the line (Formats, "The frame on the line"). -/
def frameDataBits (kind : BitVec 3) (sender : Byte) (scope : Scope) (body : List Byte) : List Bool :=
  bitsOf kind ++ bitsOf (sender.extractLsb' 0 6) ++ bitsOf (scope.mode.code.extractLsb' 0 1) ++ bitsOf scope.number ++
    bitsOf (BitVec.ofNat 5 body.length) ++ body.flatMap bitsOf

/-- The bits a sender sends: header, body and check. -/
def frameBits (kind : BitVec 3) (sender : Byte) (scope : Scope) (body : List Byte) : List Bool :=
  frameDataBits kind sender scope body ++ bitsOf (checkOf (frameDataBits kind sender scope body))

/-- Evaluation point of a frame of `length` body bytes: position 39 + 8L. -/
def evalPosition (length : Nat) : Nat := 39 + 8 * length

/-- R96: the frame length, 42 + 8L. -/
def frameLengthOf (length : Nat) : Nat := 42 + 8 * length

/-- The half-period in clocks of the 16 MHz line engine (R95, bit-timing table). -/
def Rate.halfPeriodClocks : Rate → Nat
  | .kbit125 => 64
  | .kbit500 => 16

/-- The idle gap in clocks of the line engine (R94, R95). -/
def Rate.idleGapClocks (r : Rate) : Nat := Config.idleGap * (2 * r.halfPeriodClocks)

/-- Clocks from the mark to the end condition of a frame of `length` body bytes paced at one rate, the stretch apart: a high
half-period, then every bit of the frame (The Cue Line, "The frame-length margin"). -/
def Rate.frameClocks (r : Rate) (length : Nat) : Nat := r.halfPeriodClocks * (1 + 2 * frameLengthOf length)

/-- R111. -/
def ownerOfKind (k : BitVec 3) : FrameOwner :=
  if k = 0 then .lineClock else if k = 1 ∨ k = 2 then .cueTable else if k = 3 then .hostPort else .none

/-- R115, R116: the header tests, in their order. -/
def headerStatusOf (kind : BitVec 3) (sender : Byte) (scope : Scope) (length : Nat) : HeaderStatus :=
  if 4 ≤ kind.toNat then .kind
  else if sender = 0 ∨ sender = 63 then .form
  else if Config.bodyMax < length then .form
  else if scope.mode = .group ∧ scope.number = 255 then .form
  else if scope.mode = .station ∧ (scope.number = 0 ∨ 63 ≤ scope.number.toNat) then .form
  else if kind = 0 ∧ ¬(scope.mode = .group ∧ scope.number = 0) then .form
  else .good

/-- R117, R22: the scope test. -/
def addresses (st : Station) (scope : Scope) : Bool :=
  match scope.mode with
  | .group => scope.number == 0 || st.setup.groups.contains scope.number
  | .station => scope.number == st.id

/-- The scope the decoder sampled. -/
def Decoder.scope (d : Decoder) : Scope := ⟨d.scopeMode.getD .group, d.scopeNumber.getD 0⟩

/-- The body bytes in the receive buffer. -/
def State.rxBody (s : State) : List Byte := bytesOfBits (s.decoder.length.getD 0) (s.line.rx.drop 23)

/-- The 16 check bits in the receive buffer. -/
def State.rxCheck (s : State) : Word16 :=
  BitVec.ofNat 16 (natOfBits ((s.line.rx.drop (23 + 8 * s.decoder.length.getD 0)).take 16))

end Sys2Proof.Machine
end

