-- ==== Sys2Proof/Machine/CueTable.lean ====
section
/-! DEFINITION. The cue table: its order (R10, R11), its lookup (R2), the evaluation of CUE and WITHDRAW offers (R21 to R31, R36 to
R39, R42) and what each outcome does to it (R32 to R34, R40, R41). -/

namespace Sys2Proof.Machine

/-! ### Order and lookup -/

/-- `e` stands ahead of `f`: smaller distance from `base`, then lower issuer, then lower serial (R10). -/
def aheadOf (base : Time) (e f : CueEntry) : Bool :=
  if distance e.fireTime base ≠ distance f.fireTime base then decide (distance e.fireTime base < distance f.fireTime base)
  else if e.key.issuer ≠ f.key.issuer then decide (e.key.issuer.toNat < f.key.issuer.toNat)
  else decide (e.key.serial.toNat < f.key.serial.toNat)

/-- Insert an entry at its place; the entries already there keep their order (R11). -/
def insertEntry (base : Time) (e : CueEntry) : List CueEntry → List CueEntry
  | [] => [e]
  | f :: fs => if aheadOf base f e then f :: insertEntry base e fs else e :: f :: fs

/-- The armed entry of a key (R2). -/
def CueTable.findArmed (t : CueTable) (k : Key) : Option CueEntry := t.armed.find? (fun e => e.key == k)

/-- The entry of a key, armed or provisional (R27). -/
def CueTable.find (t : CueTable) (k : Key) : Option CueEntry :=
  match t.findArmed k with
  | some e => some e
  | none => match t.provisional with
    | some e => if e.key = k then some e else none
    | none => none

/-- The entries held, the provisional entry included (R1). -/
def CueTable.held (t : CueTable) : Nat := t.armed.length + (if t.provisional.isSome then 1 else 0)

/-- R13: the entry of a key leaves; the entries behind it move up. -/
def removeKey (k : Key) (es : List CueEntry) : List CueEntry := es.filter (fun e => e.key != k)

/-- The repeat count an entry holds, 0 for a one-shot entry (R18). -/
def CueEntry.count (e : CueEntry) : Byte := match e.rep with | some r => r.count | none => 0

/-! ### Evaluating offers -/

/-- The key a CUE or WITHDRAW frame names: its SENDER with the serial of its body (R27, R38). -/
def offerKey (s : State) : Key := ⟨s.decoder.sender.getD 0, bodySerial s.rxBody⟩

/-- R27: the offer is identical to the held entry. -/
def sameOffer (e : CueEntry) (b : CueBody) (scope : Scope) : Bool :=
  e.fireTime == b.fireTime && e.scope == scope && e.actions == b.actions && e.rep == b.rep

/-- R25: the verdict on a CUE offer. -/
inductive CueVerdict where
  | refuse (reason : RefusalReason)
  | held
  | new (body : CueBody)
deriving DecidableEq, Repr

/-- R28: the lead and the horizon. -/
def leadVerdict (minLead : Nat) (fire now : Time) : Option RefusalReason :=
  if distance fire now < minLead ∨ 2 ^ 31 ≤ distance fire now then some .tooLate
  else if Config.horizon < distance fire now then some .tooFar
  else none

/-- R25: the checks, in their order. -/
def judgeCue (t : CueTable) (minLead : Nat) (sender : Byte) (scope : Scope) (now : Time) (body : List Byte) : CueVerdict :=
  match parseCue body with
  | none => .refuse .form
  | some b =>
    match t.find ⟨sender, b.serial⟩ with
    | some e => if sameOffer e b scope then .held else .refuse .keyConflict
    | none =>
      match leadVerdict minLead b.fireTime now with
      | some r => .refuse r
      | none => if t.held < Config.cueCapacity then .new b else .refuse .full

/-- R29: the provisional entry of an offer. -/
def provisionalOf (sender : Byte) (scope : Scope) (own : Bool) (b : CueBody) : CueEntry :=
  { key := ⟨sender, b.serial⟩, fireTime := b.fireTime, scope := scope, actions := b.actions, rep := b.rep,
    origin := if own then .own else .line, withdrawPending := false }

/-- The answer the decoder takes back from an owner. -/
def State.answer (s : State) (a : Answer) : State := s.withDecoder { s.decoder with answer := some a }

/-- Fill the offer record (R21). -/
def State.record (s : State) (kind : OfferKind) (key : Key) (a : Answer) (eff : OfferEffect) : State :=
  s.withCues { s.cues with offer := some ⟨kind, key, a, eff⟩ }

/-- R23, R31: an addressed CUE that this station misses. -/
def missCue (cause : MissedCause) (s : State) : State :=
  notify (.offerMissed .cue (offerKey s) cause (bodyFireTime s.rxBody)) (s.answer .none)

/-- R25 to R30. -/
def evaluateCue (s : State) : State :=
  match judgeCue s.cues s.station.setup.minLead (s.decoder.sender.getD 0) s.decoder.scope s.clock.lineTime s.rxBody with
  | .refuse r =>
    notify (.offerRefused .cue (offerKey s) r (bodyFireTime s.rxBody) s.clock.lineTime)
      ((s.record .cue (offerKey s) .veto .none).answer .veto)
  | .held => (s.record .cue (offerKey s) .take .held).answer .take
  | .new b =>
    ((s.withCues { s.cues with
        provisional := some (provisionalOf (s.decoder.sender.getD 0) s.decoder.scope s.decoder.ownFrame b) }).record
      .cue (offerKey s) .take .newEntry).answer .take

/-- R21, R23: an addressed CUE at its evaluation point. -/
def answerCue (s : State) : State :=
  match s.station.state with
  | .active => if s.synced then evaluateCue s else missCue .unsynced s
  | .silent => missCue .silent s
  | .listen => missCue .listening s
  | .setup => missCue .listening s
  | .halted => missCue .listening s

/-- R39: the lead window. -/
def inLeadWindow (minLead : Nat) (fire now : Time) : Bool :=
  decide (distance fire now < minLead) || decide (2 ^ 31 ≤ distance fire now)

/-- Set the withdraw-pending mark of a key's entry (R8). -/
def setMark (k : Key) (es : List CueEntry) : List CueEntry :=
  es.map (fun e => if e.key = k then { e with withdrawPending := true } else e)

/-- Clear every withdraw-pending mark (R41; at most one stands, R8). -/
def clearMarks (es : List CueEntry) : List CueEntry := es.map (fun e => { e with withdrawPending := false })

/-- R38: an addressed WITHDRAW at an ACTIVE station. -/
def evaluateWithdraw (s : State) : State :=
  if s.rxBody.length ≠ 1 then
    notify (.offerRefused .withdraw (offerKey s) .form 0 s.clock.lineTime)
      ((s.record .withdraw (offerKey s) .veto .none).answer .veto)
  else
    match s.cues.findArmed (offerKey s) with
    | none => (s.record .withdraw (offerKey s) .none .none).answer .none
    | some e =>
      if inLeadWindow s.station.setup.minLead e.fireTime s.clock.lineTime then
        notify (.offerRefused .withdraw (offerKey s) .tooLate e.fireTime s.clock.lineTime)
          ((s.record .withdraw (offerKey s) .veto .none).answer .veto)
      else
        ((s.withCues { s.cues with armed := setMark (offerKey s) s.cues.armed }).record
          .withdraw (offerKey s) .take .marked).answer .take

/-- R42: an addressed WITHDRAW at a SILENT station; one of LENGTH 0 names no key (log entry 34). It is not evaluated, and the offer
record stays empty, as R32 says of a missed CUE (log entry 39). -/
def missWithdraw (s : State) : State :=
  if s.rxBody = [] then s.answer .none
  else match s.cues.findArmed (offerKey s) with
  | some e => notify (.offerMissed .withdraw (offerKey s) .silent e.fireTime) (s.answer .none)
  | none => s.answer .none

/-- R38, R42. A WITHDRAW missed in LISTEN leaves the offer record empty too (log entry 39). -/
def answerWithdraw (s : State) : State :=
  match s.station.state with
  | .active => evaluateWithdraw s
  | .silent => missWithdraw s
  | .listen => s.answer .none
  | .setup => s.answer .none
  | .halted => s.answer .none

/-! ### Outcomes -/

/-- A frame's outcome at this station (Nomenclature; R121, R122). -/
inductive Outcome where
  | commit
  | void
  | unheard
  | aborted
deriving DecidableEq, Repr

/-- R32, R33: the provisional entry becomes ARMED at its place. -/
def armProvisional (s : State) : State :=
  match s.cues.provisional with
  | some e =>
    notify (.cueArmed e.key e.fireTime e.scope e.actions.length e.rep e.origin s.clock.lineTime)
      (s.withCues { armed := insertEntry s.clock.lineTime e s.cues.armed, provisional := none, offer := none })
  | none => s.withCues { s.cues with offer := none }

/-- R40: the marked entry is removed, if it is still there. -/
def removeMarked (s : State) : State :=
  match s.cues.armed.find? (fun e => e.withdrawPending) with
  | some e =>
    notify (.cueRemoved e.key .withdrawn e.fireTime e.count e.origin)
      (s.withCues { s.cues with armed := removeKey e.key s.cues.armed, offer := none })
  | none => s.withCues { s.cues with offer := none }

/-- R32, R34, R40, R41: the outcome of the frame the offer record is of. -/
def cueTableOutcome (o : Outcome) (s : State) : State :=
  match s.cues.offer with
  | none => s
  | some r =>
    match r.effect, o with
    | .newEntry, .commit => armProvisional s
    | .newEntry, _ => s.withCues { s.cues with provisional := none, offer := none }
    | .marked, .commit => removeMarked s
    | .marked, _ => s.withCues { s.cues with armed := clearMarks s.cues.armed, offer := none }
    | .held, _ => s.withCues { s.cues with offer := none }
    | .none, _ => s.withCues { s.cues with offer := none }

end Sys2Proof.Machine
end

