-- ==== Sys2Proof/Machine/Firing.lean ====
section
/-! DEFINITION. The firing unit: what an advance of line time brings due and in which order (R51, R52), firing an entry (R53 to R59),
the pulse list (R61 to R64). -/

namespace Sys2Proof.Machine

/-- The pulse list without the point's restore (R63). -/
def cancelRestore (i : Fin 16) (ps : List Restore) : List Restore := ps.filter (fun r => r.point != i)

/-- Record a restore, replacing any restore of the point (R62). -/
def recordRestore (r : Restore) (ps : List Restore) : List Restore := cancelRestore r.point ps ++ [r]

/-- The opposite level. -/
def flipLevel : Level → Level
  | .low => .high
  | .high => .low

/-- R53, on a line-owned point; `fire` is the entry's scheduled fire time. -/
def Points.apply (p : Points) (fire : Time) (a : Action) : Points :=
  match a.op with
  | .raise => { p.setLevel a.point .high with pulses := cancelRestore a.point p.pulses }
  | .lower => { p.setLevel a.point .low with pulses := cancelRestore a.point p.pulses }
  | .invert => { p.setLevel a.point (flipLevel (p.level a.point)) with pulses := cancelRestore a.point p.pulses }
  | .pulseHigh w =>
    { p.setLevel a.point .high with pulses := recordRestore ⟨a.point, fire + w.setWidth 32, .low⟩ p.pulses }
  | .pulseLow w =>
    { p.setLevel a.point .low with pulses := recordRestore ⟨a.point, fire + w.setWidth 32, .high⟩ p.pulses }

/-- R53, R54: the actions in list order; those on host-owned points are skipped. -/
def applyActions (fire : Time) : List Action → Points → Points
  | [], p => p
  | a :: as, p =>
    match p.owner a.point with
    | .line => applyActions fire as (p.apply fire a)
    | .host => applyActions fire as p

/-- R54: actions whose point is HOST-owned. -/
def skippedActions (p : Points) (as : List Action) : Nat := (as.filter (fun a => p.owner a.point == .host)).length

/-- What a firing leaves of an entry: the entry put back, if it is; repeats left; repeats skipped. -/
structure FiringResult where
  putBack : Option CueEntry
  left : Nat
  skipped : Nat
deriving DecidableEq, Repr

/-- R55 to R57: `k` is the smallest number of periods, from 1, that brings the fire time after `target`. -/
def afterFiring (target : Time) (e : CueEntry) : FiringResult :=
  match e.rep with
  | none => ⟨none, 0, 0⟩
  | some r =>
    let k := distance target e.fireTime / r.period.toNat + 1
    if k ≤ r.count.toNat then
      ⟨some { e with
          fireTime := e.fireTime + BitVec.ofNat 32 (k * r.period.toNat),
          rep := if k = r.count.toNat then none else some ⟨r.period, BitVec.ofNat 8 (r.count.toNat - k)⟩ },
        r.count.toNat - k, k - 1⟩
    else ⟨none, 0, r.count.toNat⟩

/-- R55: the table after the head `e` has fired; `rest` stands behind it. The place of an entry put back is measured from the
base of the advance, so that entries due at the same advance and not yet fired stand ahead of it (R11). -/
def tableAfter (adv : Advance) (e : CueEntry) (rest : List CueEntry) : List CueEntry :=
  match (afterFiring adv.target e).putBack with
  | some e' => insertEntry adv.base e' rest
  | none => rest

/-- R53 to R59: the head of the table fires at the advance. -/
def fireEntry (adv : Advance) (e : CueEntry) (rest : List CueEntry) (s : State) : State :=
  let r := afterFiring adv.target e
  notify
    (.cueFired e.key e.fireTime adv.target (isAfter adv.target e.fireTime) (skippedActions s.points e.actions) r.left r.skipped
      r.putBack.isNone)
    ((s.withPoints (applyActions e.fireTime e.actions s.points)).withCues { s.cues with armed := tableAfter adv e rest })

/-- The next due item of an advance (R52). -/
inductive DueItem where
  | entry (e : CueEntry) (rest : List CueEntry)
  | restores (dist : Nat)
deriving DecidableEq, Repr

/-- The least distance among the restores the advance reaches. -/
def firstRestore (adv : Advance) : List Restore → Option Nat
  | [] => none
  | r :: rs =>
    if adv.reaches r.time then
      match firstRestore adv rs with
      | some d => some (min (distance r.time adv.base) d)
      | none => some (distance r.time adv.base)
    else firstRestore adv rs

/-- The due entry: the head, if the advance reaches its fire time (R51). -/
def dueEntry (adv : Advance) (s : State) : Option (CueEntry × List CueEntry) :=
  match s.cues.armed with
  | e :: rest => if adv.reaches e.fireTime then some (e, rest) else none
  | [] => none

/-- R52: by time; at one time the entries first, then the restores. -/
def nextDueItem (adv : Advance) (s : State) : Option DueItem :=
  match dueEntry adv s, firstRestore adv s.points.pulses with
  | some (e, rest), some d => if distance e.fireTime adv.base ≤ d then some (.entry e rest) else some (.restores d)
  | some (e, rest), none => some (.entry e rest)
  | none, some d => some (.restores d)
  | none, none => none

/-- Each of these points takes its restore level. -/
def setRestored : List Restore → Points → Points
  | [], p => p
  | r :: rs, p => setRestored rs (p.setLevel r.point r.level)

/-- R64: the restores at one distance are applied together, and their slots become not pending. -/
def applyRestores (adv : Advance) (dist : Nat) (p : Points) : Points :=
  { setRestored (p.pulses.filter (fun r => distance r.time adv.base == dist)) p with
    pulses := p.pulses.filter (fun r => distance r.time adv.base != dist) }

/-- R45, R64: every pending restore at once (RESTART). -/
def applyAllRestores (p : Points) : Points := { setRestored p.pulses p with pulses := [] }

/-- Take one due item. -/
def takeDueItem (adv : Advance) (it : DueItem) (s : State) : State :=
  match it with
  | .entry e rest => fireEntry adv e rest s
  | .restores d => s.withPoints (applyRestores adv d s.points)

/-- Take the due items of an advance one after another, at most `n` of them. -/
def takeDueItems (adv : Advance) : Nat → State → State
  | 0, s => s
  | n + 1, s =>
    match nextDueItem adv s with
    | some it => takeDueItems adv n (takeDueItem adv it s)
    | none => s

/-- Enough for every item of one advance: each entry fires once, and each restore, pending or recorded by an action of a
firing, is applied once. -/
def dueBound (s : State) : Nat :=
  s.cues.armed.length + s.points.pulses.length + (s.cues.armed.map (fun e => e.actions.length)).sum

/-- R52: the whole work of the firing unit for an advance. -/
def fireAdvance (adv : Advance) (s : State) : State := takeDueItems adv (dueBound s) s

end Sys2Proof.Machine
end

