-- ==== Sys2Proof/Machine/Formats.lean ====
section
/-! DEFINITION. The bytes the host reads (Formats; R182): status codes, enumerated fields by their place in their list, absent
fields, and the 13 notice records. -/

namespace Sys2Proof.Machine

def Status.byte : Status → Byte
  | .ok => 0
  | .wrongState => 1
  | .full => 2
  | .form => 3
  | .notFound => 4
  | .busy => 5
  | .empty => 6

/-- The bytes shifted out after the command is taken: the status byte, then the results. -/
def Response.bytes (r : Response) : List Byte := r.status.byte :: r.results

/-- OK with results. -/
def okWith (results : List Byte) : Response := ⟨.ok, results⟩

/-- A refusal without results. -/
def refusal (st : Status) : Response := ⟨st, []⟩

/-- What MISO carries where there is no status and no result to shift out (R182). -/
def fillByte : Byte := 0xFF

/-- The byte that the next byte clocked carries on MISO: in RESULTS the first byte of the response not yet shifted out, the status
before the results; in every other phase the fill byte (R167, R182), in WAITING too, of which R182 does not speak (log entry 42). -/
def Port.miso (p : Port) : Byte :=
  match p.phase, p.response with
  | .results, some r => r.bytes.getD p.shifted fillByte
  | _, _ => fillByte

/-- `n` bytes clocked in RESULTS shift out as many bytes of the response; what the host shifts in is ignored. When the last byte has
been shifted out the phase becomes DONE (R167). -/
def Port.clocked (p : Port) (n : Nat) : Port :=
  match p.phase, p.response with
  | .results, some r =>
    { p with
      shifted := min r.bytes.length (p.shifted + n),
      phase := if r.bytes.length ≤ p.shifted + n then .done else .results }
  | _, _ => p

def byteOf (n : Nat) : Byte := BitVec.ofNat 8 n
def boolByte (b : Bool) : Byte := if b then 1 else 0

/-- READ_CAPTURE's one-byte level: LOW 0 and HIGH 1, as a bit of a levels word (R182 gives no list for it: log entry 36). -/
def levelByte (l : Level) : Byte := match l with | .low => 0 | .high => 1

def stationStateByte : StationState → Byte
  | .halted => 0
  | .setup => 1
  | .listen => 2
  | .active => 3
  | .silent => 4

def clockStateByte : ClockState → Byte
  | .unsynced => 0
  | .following => 1
  | .reference => 2
  | .holdover => 3

def sourceByte : Source → Byte
  | .host => 0
  | .trigger i => byteOf (i.val + 1)

/-- Frame kind: BEACON 0, WITHDRAW 1, CUE 2, MESSAGE 3. -/
def SendKind.code : SendKind → BitVec 3
  | .withdraw => 1
  | .cue => 2
  | .message => 3

/-- A frame kind: its KIND, which is its place in the list of R182; an undefined KIND of 4 to 7, which that list does not hold, is
written as its number too (R115; log entry 40). -/
def kindByte (k : BitVec 3) : Byte := byteOf k.toNat

def offerKindByte : OfferKind → Byte
  | .withdraw => 1
  | .cue => 2

def sendOutcomeByte : SendOutcome → Byte
  | .accepted => 0
  | .refused => 1
  | .unheard => 2
  | .broken => 3
  | .notSynced => 4
  | .expired => 5
  | .purged => 6
  | .silenced => 7

def refusalReasonByte : RefusalReason → Byte
  | .form => 0
  | .keyConflict => 1
  | .tooLate => 2
  | .tooFar => 3
  | .full => 4

def missedCauseByte : MissedCause → Byte
  | .listening => 0
  | .silent => 1
  | .unsynced => 2

def removalCauseByte : RemovalCause → Byte
  | .withdrawn => 0
  | .dropped => 1

def clockCauseByte : ClockCause → Byte
  | .adopted => 0
  | .ownBeacon => 1
  | .yielded => 2
  | .newReference => 3
  | .stepped => 4
  | .referenceLost => 5
  | .holdoverLimit => 6
  | .leftActive => 7

def lineErrorCauseByte : LineErrorCause → Byte
  | .stuckLow => 0
  | .stall => 1
  | .framing => 2
  | .kind => 3
  | .form => 4

def wireByte : Wire → Byte
  | .pace => 0
  | .data => 1

def roleByte : Role → Byte
  | .sender => 0
  | .receiver => 1
  | .none => 2

def lineStateByte : LineState → Byte
  | .off => 0
  | .waitIdle => 1
  | .idle => 2
  | .sending => 3
  | .receiving => 4
  | .answering => 5
  | .recover => 6

def presenceByte : Presence → Byte
  | .unknown => 0
  | .present => 1
  | .silent => 2

def triggerOutcomeByte : TriggerOutcome → Byte
  | .queued => 0
  | .droppedFull => 1
  | .droppedUnsynced => 2
  | .droppedState => 3
  | .cleared => 4

def stationCauseByte : StationCause → Byte
  | .reset => 0
  | .restart => 1
  | .joined => 2
  | .synced => 3
  | .firstListen => 4
  | .leave => 5
  | .duplicateId => 6

def originByte : Origin → Byte
  | .line => 0
  | .own => 1

def edgeByte : Edge → Byte
  | .rise => 0
  | .fall => 1

def rateByte : Rate → Byte
  | .kbit125 => 0
  | .kbit500 => 1

/-- A reference ID of none is written 0 (R182). -/
def refByte (r : Option Byte) : Byte := r.getD 0

/-- A field that is none or absent is written 255 in one byte (R182). -/
def orAbsent (b : Option Byte) : Byte := b.getD 255

def scopeBytes (s : Scope) : List Byte := [s.mode.code, s.number]

/-- The fields of a record, in the order of Formats. -/
def Notice.fields : Notice → List Byte
  | .sendDone handle source kind serial outcome attempts losses issued time =>
    [handle, sourceByte source, kindByte kind.code, serial, sendOutcomeByte outcome, byteOf attempts, byteOf losses,
      boolByte issued] ++ bytes4 time
  | .cueArmed key fire scope count rep origin time =>
    [key.issuer, key.serial] ++ bytes4 fire ++ scopeBytes scope ++ [byteOf count, boolByte rep.isSome] ++
      (match rep with | some r => bytes2 r.period ++ [r.count] | none => [0, 0, 0]) ++ [originByte origin] ++ bytes4 time
  | .cueFired key scheduled actual late skipped left skippedRepeats last =>
    [key.issuer, key.serial] ++ bytes4 scheduled ++ bytes4 actual ++
      [boolByte late, byteOf skipped, byteOf left, byteOf skippedRepeats, boolByte last]
  | .cueRemoved key cause fire count origin =>
    [key.issuer, key.serial, removalCauseByte cause] ++ bytes4 fire ++ [count, originByte origin]
  | .offerRefused kind key reason fire now =>
    [offerKindByte kind, key.issuer, key.serial, refusalReasonByte reason] ++ bytes4 fire ++ bytes4 now
  | .offerMissed kind key cause fire =>
    [offerKindByte kind, key.issuer, key.serial, missedCauseByte cause] ++ bytes4 fire
  | .message sender scope time payload =>
    [sender] ++ scopeBytes scope ++ bytes4 time ++ [byteOf payload.length] ++ payload
  | .clock cause previous new refId offset stepped carried time =>
    [clockCauseByte cause, clockStateByte previous, clockStateByte new, refByte refId] ++ bytes4 (BitVec.ofInt 32 offset) ++
      [boolByte stepped, clockStateByte carried] ++ bytes4 time
  | .peer id previous new heard frames time =>
    [id, presenceByte previous, presenceByte new] ++ bytes4 heard ++ bytes2 (BitVec.ofNat 16 frames) ++ bytes4 time
  | .lineError cause wire lineState position role kind sender time =>
    [lineErrorCauseByte cause, orAbsent (wire.map wireByte), lineStateByte lineState] ++
      bytes2 (match position with | some p => BitVec.ofNat 16 p | none => 65535) ++
      [roleByte role, orAbsent (kind.map kindByte), orAbsent sender] ++ bytes4 time
  | .trigger input outcome serial edge edgeTime fire time =>
    [byteOf input.val, triggerOutcomeByte outcome, serial, orAbsent (edge.map edgeByte)] ++ bytes4 edgeTime ++ bytes4 fire ++
      bytes4 time
  | .station previous new cause kind id time =>
    [orAbsent (previous.map stationStateByte), stationStateByte new, stationCauseByte cause, orAbsent (kind.map kindByte), id] ++
      bytes4 time
  | .configMismatch sender carried own time => [sender, carried, own] ++ bytes4 time

/-- A record: class byte, length byte, fields (Formats, "Notice records"). -/
def Notice.bytes (n : Notice) : List Byte := byteOf n.cls.index :: byteOf n.fields.length :: n.fields

end Sys2Proof.Machine
end

