-- ==== Sys2Proof/Machine/Sending.lean ====
section
/-! DEFINITION. The send unit: serials and the issued list (R128, R130), making entries (R126, R127, R129), what an attempt's outcome
does to the head (R132, R136), ending entries (R133, R138), offering (R131, R85). -/

namespace Sys2Proof.Machine

/-! ### Serials and room -/

/-- Serials a new CUE may not take: those of every entry in the queue and of the issued list (R128). -/
def SendUnit.usedSerials (u : SendUnit) : List Byte :=
  u.queue.filterMap (fun e => e.serial) ++ u.issued.map (fun i => i.serial)

/-- R128: the first value counting up from `c`, wrapping, that is not used; `n` values are tried. -/
def firstFree (used : List Byte) : Nat → Byte → Byte
  | 0, c => c
  | n + 1, c => if used.contains c then firstFree used n (c + 1) else c

/-- R128: the serial a new CUE takes. -/
def SendUnit.nextSerial (u : SendUnit) : Byte := firstFree u.usedSerials 256 u.counter

/-- CUE entries of the queue. -/
def SendUnit.queuedCues (u : SendUnit) : Nat := (u.queue.filter (fun e => e.kind == .cue)).length

/-- R126 step 4. -/
def SendUnit.queueRoom (u : SendUnit) : Bool := decide (u.queue.length < Config.sendCapacity)

/-- R126 step 5. -/
def SendUnit.serialRoom (u : SendUnit) : Bool := decide (u.issued.length + u.queuedCues < Config.issuedCapacity)

/-! ### Making entries -/

/-- The fields every new entry begins with (R127). -/
def newEntry (s : State) (handle : Byte) (source : Source) (kind : SendKind) (scope : Scope) (body : List Byte)
    (serial : Option Byte) : SendEntry :=
  { handle := handle, source := source, kind := kind, scope := scope, body := body, serial := serial,
    attemptsLeft := s.station.setup.sendAttempts, losses := 0, brokenSeen := false, retire := false, inFlight := false }

/-- An entry joins the tail (R124). -/
def joinQueue (e : SendEntry) (s : State) : State := s.withSend { s.send with queue := s.send.queue ++ [e] }

/-- R127, R128: a CUE entry; `fields` is its body without the serial. -/
def joinCue (handle : Byte) (source : Source) (scope : Scope) (fields : List Byte) (s : State) : State :=
  let serial := s.send.nextSerial
  joinQueue (newEntry s handle source .cue scope (serial :: fields) (some serial))
    (s.withSend { s.send with counter := serial + 1 })

/-! ### Ending entries -/

/-- R130: the line time of a cue's last firing. -/
def lastFireOf (body : List Byte) : Time :=
  match parseCue body with
  | some b =>
    match b.rep with
    | some r => b.fireTime + BitVec.ofNat 32 (r.period.toNat * r.count.toNat)
    | none => b.fireTime
  | none => bodyFireTime body

/-- R133: a CUE's serial enters the issued list at this ending. -/
def entersIssued (e : SendEntry) (o : SendOutcome) : Bool := e.kind == .cue && (o == .accepted || e.brokenSeen)

/-- R133: the issued list after an ending. -/
def issuedAfter (e : SendEntry) (o : SendOutcome) (issued : List Issued) : List Issued :=
  if entersIssued e o then issued ++ [⟨e.serial.getD 0, e.scope, lastFireOf e.body⟩]
  else if e.kind = .withdraw ∧ o = .accepted then issued.filter (fun i => some i.serial != e.serial)
  else issued

/-- R138. -/
def sendDoneNotice (e : SendEntry) (o : SendOutcome) (s : State) : Notice :=
  .sendDone e.handle e.source e.kind (e.serial.getD 0) o (s.station.setup.sendAttempts - e.attemptsLeft) e.losses
    (entersIssued e o) s.clock.lineTime

/-- R133, R138: the ending of an entry that has left the queue. -/
def endEntry (o : SendOutcome) (e : SendEntry) (s : State) : State :=
  notify (sendDoneNotice e o s) (s.withSend { s.send with issued := issuedAfter e o s.send.issued })

/-- End these entries one after another. -/
def endEntries (o : SendOutcome) : List SendEntry → State → State
  | [], s => s
  | e :: es, s => endEntries o es (endEntry o e s)

/-- R137: every entry of the queue ends SILENCED. -/
def silenceQueue (s : State) : State :=
  endEntries .silenced s.send.queue (s.withSend { s.send with queue := [], offered := .none })

/-! ### Outcomes of attempts -/

/-- What an outcome makes of the head: it is QUEUED again, or it ends (R132, R136). -/
inductive HeadFate where
  | requeued (e : SendEntry)
  | ended (o : SendOutcome) (e : SendEntry)
deriving DecidableEq, Repr

/-- One attempt counted; the attempt is over. -/
def SendEntry.counted (e : SendEntry) : SendEntry := { e with attemptsLeft := e.attemptsLeft - 1, inFlight := false }

/-- QUEUED again, unless the retire mark ends it PURGED (R136). -/
def backToQueue (e : SendEntry) : HeadFate := if e.retire then .ended .purged e else .requeued e

/-- R132. -/
def headFate (o : AttemptOutcome) (e : SendEntry) : HeadFate :=
  match o with
  | .lost => backToQueue { e with losses := min Config.lossesMax (e.losses + 1), inFlight := false }
  | .broken =>
    let e' := { e.counted with brokenSeen := true }
    if e'.attemptsLeft = 0 then .ended .broken e' else backToQueue e'
  | .unheard => if e.counted.attemptsLeft = 0 then .ended .unheard e.counted else backToQueue e.counted
  | .refused => .ended .refused e.counted
  | .accepted => .ended .accepted e.counted

/-- R132: an outcome reaches the head of the queue. -/
def headOutcome (o : AttemptOutcome) (s : State) : State :=
  match s.send.queue with
  | [] => s
  | e :: rest =>
    match headFate o e with
    | .requeued e' => s.withSend { s.send with queue := e' :: rest }
    | .ended oc e' => endEntry oc e' (s.withSend { s.send with queue := rest })

/-- The outcome of this station's attempt goes to the line clock's beacon when that is in flight (R86), else to the head. -/
def attemptOutcome (o : AttemptOutcome) (s : State) : State :=
  if s.send.slot = .inFlight then s.withSend { s.send with slot := .empty } else headOutcome o s

/-! ### Ageing (R130) -/

/-- R130: at an advance, the issued entries it goes beyond leave the list. -/
def ageIssued (adv : Advance) (s : State) : State :=
  s.withSend { s.send with issued := s.send.issued.filter (fun i => !adv.passes i.lastFire) }

/-! ### Offers (R131, R85) -/

/-- The station is ACTIVE and the line state is IDLE. -/
def State.mayOffer (s : State) : Bool := s.station.state == .active && s.line.state == .idle

/-- The head of the queue is QUEUED. -/
def SendUnit.headQueued (u : SendUnit) : Bool :=
  match u.queue with
  | e :: _ => !e.inFlight
  | [] => false

/-- An offer of the head is called for: its conditions hold and nothing stands offered (R131). -/
def State.headOfferDue (s : State) : Bool :=
  s.mayOffer && s.send.slot == .empty && s.send.headQueued && s.send.offered == .none

/-- An offer of the beacon is called for; it takes the place of an offered head (R85, R131). -/
def State.beaconOfferDue (s : State) : Bool := s.mayOffer && s.send.slot == .queued && s.send.offered != .beacon

/-- R131: the check before an offer. -/
def preAttempt (e : SendEntry) (s : State) : Option SendOutcome :=
  if e.kind = .cue then
    if s.clock.state = .unsynced then some .notSynced
    else if inLeadWindow s.station.setup.minLead (bodyFireTime e.body) s.clock.lineTime then some .expired
    else none
  else none

/-- R131: entries that fail the check end, in queue order, until one passes and is offered, at most `n` of them. -/
def offerQueue : Nat → State → State
  | 0, s => s
  | n + 1, s =>
    match s.send.queue with
    | [] => s
    | e :: rest =>
      if e.inFlight then s
      else
        match preAttempt e s with
        | some o => offerQueue n (endEntry o e (s.withSend { s.send with queue := rest }))
        | none => s.withSend { s.send with offered := .head }

/-- R131. -/
def offerHead (s : State) : State := if s.headOfferDue then offerQueue (s.send.queue.length + 1) s else s

/-- R85. -/
def offerBeacon (s : State) : State :=
  if s.beaconOfferDue then s.withSend { s.send with offered := .beacon } else s

/-- The offers that this instant calls for. -/
def makeOffers (s : State) : State := offerHead (offerBeacon s)

end Sys2Proof.Machine
end

