-- ==== Sys2Proof/Machine/Clock.lean ====
section
/-! DEFINITION. The line clock and what hangs on its due times: the tick and the slew (R67, R77), due times (R71, R72, R79 to R81, R84),
beacons (R73 to R76, R78, R82, R88), the peer table's ageing (R163), and station control's entries to ACTIVE and SILENT (R158, R160). -/

namespace Sys2Proof.Machine

/-! ### The tick -/

/-- The first multiple of the period after a line time (R71). -/
def firstMultipleAfter (period : Nat) (t : Time) : Time := BitVec.ofNat 32 ((t.toNat / period + 1) * period)

/-- The next tick is a slewed tick (R77). -/
def Clock.slewDue (c : Clock) : Bool := decide (c.slewRemainder ≠ 0) && decide (Config.slewSpan ≤ c.slewPhase + 1)

/-- Ticks by which the next tick advances line time (R67, R77). -/
def Clock.tickSize (c : Clock) : Nat := if c.slewDue then (if 0 < c.slewRemainder then 2 else 0) else 1

/-- R77: the slew part of the record after a tick. -/
def Clock.slewed (c : Clock) : Clock :=
  if c.slewDue then
    if 0 < c.slewRemainder then
      { c with slewRemainder := c.slewRemainder - 1, slewPhase := 0, slewSinceMark := c.slewSinceMark + 1 }
    else { c with slewRemainder := c.slewRemainder + 1, slewPhase := 0, slewSinceMark := c.slewSinceMark - 1 }
  else if c.slewRemainder = 0 then { c with slewPhase := 0 }
  else { c with slewPhase := c.slewPhase + 1 }

/-- R71: a due time is taken at an advance of 1 or 2 that reaches the next due time. -/
def Clock.dueAt (c : Clock) (t : Time) : Bool :=
  match c.nextDue with
  | some d => !isAfter d t
  | none => false

/-- The clock record after a tick: line time moved, the slew counted, the next due time set anew when it was reached. -/
def Clock.ticked (c : Clock) : Clock :=
  let t := c.lineTime + BitVec.ofNat 32 c.tickSize
  { c.slewed with
    lineTime := t,
    nextDue := if c.tickSize ≠ 0 ∧ c.dueAt t then some (firstMultipleAfter c.beaconPeriod t) else c.nextDue }

/-- R67, R70, R71: a tick of the crystal; the advance and the due time are handed on. -/
def crystalTick (s : State) : State :=
  (s.withClock s.clock.ticked).withWork
    { s.work with
      advance := if s.clock.tickSize = 0 then none else some ⟨s.clock.lineTime, s.clock.tickSize⟩,
      due := decide (s.clock.tickSize ≠ 0) && s.clock.dueAt s.clock.ticked.lineTime }

/-! ### Station control: entering ACTIVE and SILENT -/

/-- A STATION notice for the state as it now stands (R161). -/
def stationNotice (previous : Option StationState) (cause : StationCause) (kind : Option (BitVec 3)) (s : State) : Notice :=
  .station previous s.station.state cause kind s.station.id s.clock.lineTime

/-- Move to a station state and report it. -/
def enterState (new : StationState) (cause : StationCause) (kind : Option (BitVec 3)) (s : State) : State :=
  let s' := s.withStation { s.station with state := new }
  notify (stationNotice (some s.station.state) cause kind s') s'

/-- R158: LISTEN becomes ACTIVE. -/
def enterActive (cause : StationCause) (s : State) : State :=
  if s.station.state = .listen then enterState .active cause none s else s

/-- A CLOCK notice of an event that is no adoption (R88): offset 0, the new state as carried state. -/
def clockNotice (cause : ClockCause) (previous : ClockState) (s : State) : Notice :=
  .clock cause previous s.clock.state s.clock.refId 0 false s.clock.state s.clock.lineTime

/-- R87: the line clock at the entry to SILENT. -/
def clockLeavesActive (s : State) : State :=
  let s := s.withSend { s.send with slot := if s.send.slot = .queued then .empty else s.send.slot }
  if s.clock.state = .reference then
    let s' := s.withClock { s.clock with state := .holdover, refId := none, holdoverCount := 0, missCount := 0 }
    notify (clockNotice .leftActive .reference s') s'
  else s

/-- R100: a station that holds the stretch releases PACE. -/
def Stretch.letGo : Stretch → Stretch
  | .none => .none
  | .holding => .released
  | .released => .released

/-- R90, R104: both wires are released. -/
def Line.releaseWires (l : Line) : Line :=
  { l with drivesPace := false, drivesData := false, driving := false, halfPeriod := .none,
           stretch := l.stretch.letGo }

/-- R160: the entry to SILENT. -/
def enterSilent (cause : StationCause) (kind : Option (BitVec 3)) (s : State) : State :=
  let s := s.withStation { s.station with leavePending := false, dupPending := false }
  let s := s.withLine s.line.releaseWires
  eitherOrder silenceQueue clockLeavesActive (enterState .silent cause kind s)

/-! ### Due times -/

/-- R79: the reference is lost. -/
def loseReference (s : State) : State :=
  let s' := s.withClock { s.clock with state := .holdover, refId := none, missCount := 0, holdoverCount := 0 }
  notify (clockNotice .referenceLost s.clock.state s') s'

/-- R80: the holdover limit. -/
def endHoldover (s : State) : State :=
  let s' := s.withClock { s.clock with
    state := .unsynced, slewRemainder := 0, slewPhase := 0, holdoverCount := 0, window := .running, windowCount := 0 }
  notify (clockNotice .holdoverLimit s.clock.state s') s'

/-- R81: the first-listen window expires; an eligible LISTEN station enters ACTIVE. -/
def expireWindow (s : State) : State :=
  let s' := s.withClock { s.clock with window := .expired, windowCount := Config.firstListenLimit }
  if s.station.eligible then enterActive .firstListen s' else s'

/-- R72, step 1. -/
def dueCounts (s : State) : State :=
  match s.clock.state with
  | .following =>
    if Config.missLimit ≤ s.clock.missCount + 1 then loseReference s
    else s.withClock { s.clock with missCount := s.clock.missCount + 1 }
  | .holdover =>
    if Config.holdoverLimit ≤ s.clock.holdoverCount + 1 then endHoldover s
    else s.withClock { s.clock with holdoverCount := s.clock.holdoverCount + 1 }
  | .unsynced =>
    if s.clock.window = .running then
      if Config.firstListenLimit ≤ s.clock.windowCount + 1 then expireWindow s
      else s.withClock { s.clock with windowCount := s.clock.windowCount + 1 }
    else s
  | .reference => s

/-- R84: the clock state permits a beacon. -/
def Clock.permitsBeacon (c : Clock) (own : Byte) : Bool :=
  match c.state with
  | .reference => true
  | .holdover => true
  | .following => match c.refId with
    | some r => decide (own.toNat < r.toNat)
    | none => false
  | .unsynced => c.window == .expired

/-- R72, step 2; R84. -/
def placeBeacon (s : State) : State :=
  if s.station.eligible ∧ s.station.state = .active ∧ s.clock.permitsBeacon s.station.id ∧ s.send.slot = .empty then
    s.withSend { s.send with slot := .queued }
  else s

/-- R163: one record at a due time. -/
def PeerRecord.aged (r : PeerRecord) : PeerRecord :=
  if r.presence = .present then
    if Config.silenceLimit ≤ r.silenceCount + 1 then
      { r with presence := .silent, silenceCount := Config.silenceLimit, beaconSender := false }
    else { r with silenceCount := r.silenceCount + 1 }
  else r

/-- R163, R165: the PEER notices of one ageing, records in the order of their IDs from `id` on (log entry 6). -/
def ageingNotices (now : Time) : Byte → List PeerRecord → List Notice
  | _, [] => []
  | id, r :: rs =>
    if r.presence = .present ∧ r.aged.presence = .silent then
      .peer id .present .silent r.lastHeard r.framesHeard now :: ageingNotices now (id + 1) rs
    else ageingNotices now (id + 1) rs

/-- R72, step 3; R163. -/
def agePeers (s : State) : State :=
  notifyAll (ageingNotices s.clock.lineTime 1 s.peers) (s.withPeers (s.peers.map PeerRecord.aged))

/-- R72: a due time, whole. -/
def dueTime (s : State) : State := agePeers (placeBeacon (dueCounts s))

/-! ### Beacons -/

/-- A signed number of 32 bits (R74). -/
def signed (t : Time) : Int := t.toInt

/-- R74: the offset at the instant of the commit. -/
def offsetOf (c : Clock) (b : BeaconRecord) : Int :=
  signed (b.carriedTime - b.markTime - BitVec.ofInt 32 c.slewSinceMark)

/-- R78: line time stepped by the offset. -/
def Clock.stepped (c : Clock) (offset : Int) : Clock :=
  let t := c.lineTime + BitVec.ofInt 32 offset
  { c with lineTime := t, slewRemainder := 0, slewPhase := 0,
           nextDue := c.nextDue.map (fun _ => firstMultipleAfter c.beaconPeriod t) }

/-- R77: the offset replaces the slew remainder. -/
def Clock.slewBy (c : Clock) (offset : Int) : Clock := { c with slewRemainder := offset, slewPhase := 0 }

/-- The correction of an adoption steps (R76, R78). -/
def stepsClock (from_ : ClockState) (offset : Int) : Bool :=
  from_ == .unsynced || decide (Config.slewLimit < offset.natAbs)

/-- What an adoption leaves: R76, with the miss count 0 and the window OFF (R81). -/
def Clock.adopted (c : Clock) (b : BeaconRecord) : Clock :=
  let offset := offsetOf c b
  let c' := if stepsClock c.state offset then c.stepped offset else c.slewBy offset
  { c' with state := .following, refId := some b.sender, missCount := 0, holdoverCount := 0, window := .off,
            windowCount := 0, beacon := none }

/-- The advance a step hands on (R70); a backward step and a step of 0 hand none. -/
def steppedAdvance (c : Clock) (b : BeaconRecord) : Option Advance :=
  if stepsClock c.state (offsetOf c b) ∧ 0 < offsetOf c b then some ⟨c.lineTime, (offsetOf c b).toNat⟩ else none

/-- R76: the beacon is adopted, and the cause CLOCK reports, if it reports one. -/
inductive Adoption where
  | ignored
  | adopts (cause : Option ClockCause)
deriving DecidableEq, Repr

/-- R76. -/
def adoptionOf (c : Clock) (own : Byte) (b : BeaconRecord) : Adoption :=
  match c.state with
  | .unsynced => .adopts (some .adopted)
  | .holdover => .adopts (some .adopted)
  | .following =>
    match c.refId with
    | some r =>
      if b.sender = r then .adopts (if stepsClock c.state (offsetOf c b) then some .stepped else none)
      else if b.sender.toNat < r.toNat then .adopts (some .newReference)
      else .ignored
    | none => .ignored
  | .reference => if b.sender.toNat < own.toNat then .adopts (some .yielded) else .ignored

/-- R88: the CLOCK notice of an adoption. -/
def adoptionNotice (cause : ClockCause) (c : Clock) (b : BeaconRecord) : Notice :=
  .clock cause c.state .following (some b.sender) (offsetOf c b) (stepsClock c.state (offsetOf c b)) b.carriedState
    (c.adopted b).lineTime

/-- R76, R78, R88, R89, R158: the adoption of the filled beacon record. -/
def adoptBeacon (b : BeaconRecord) (s : State) : State :=
  match adoptionOf s.clock s.station.id b with
  | .ignored => s.withClock { s.clock with beacon := none }
  | .adopts cause =>
    let s' := (s.withClock (s.clock.adopted b)).withWork { s.work with advance := steppedAdvance s.clock b }
    let s'' := match cause with
      | some k => notify (adoptionNotice k s.clock b) s'
      | none => s'
    if s.clock.state = .unsynced then enterActive .synced s'' else s''

/-- R73: the commit of the station's own beacon. -/
def ownBeaconCommits (s : State) : State :=
  if s.clock.state = .reference then s
  else
    let s' := s.withClock { s.clock with
      state := .reference, refId := some s.station.id, slewRemainder := 0, slewPhase := 0, missCount := 0,
      holdoverCount := 0, window := .off, windowCount := 0 }
    notify (clockNotice .ownBeacon s.clock.state s') s'

/-- R86: a committed beacon of a lower ID with this station's period code empties a QUEUED slot. -/
def yieldSlot (sender : Byte) (s : State) : State :=
  if s.send.slot = .queued ∧ sender.toNat < s.station.id.toNat then s.withSend { s.send with slot := .empty } else s

/-- R73, R76, R86, R122: the outcome of a BEACON frame at the line clock. -/
def lineClockOutcome (o : Outcome) (s : State) : State :=
  match o with
  | .commit =>
    if s.decoder.ownFrame then ownBeaconCommits s
    else
      match s.clock.beacon with
      | some b => adoptBeacon b (yieldSlot b.sender s)
      | none => s
  | .void => s.withClock { s.clock with beacon := none }
  | .unheard => s.withClock { s.clock with beacon := none }
  | .aborted => s.withClock { s.clock with beacon := none }

/-- The clock state a byte names (Formats). -/
def parseClockState (b : Byte) : Option ClockState :=
  if b = 0 then some .unsynced else if b = 1 then some .following else if b = 2 then some .reference
  else if b = 3 then some .holdover else none

/-- A well-formed BEACON body: carried time, period code, clock state (R75, Formats). -/
def parseBeacon : List Byte → Option (Time × Byte × ClockState)
  | [t3, t2, t1, t0, code, st] =>
    if code.extractLsb' 2 6 = 0 then (parseClockState st).map (fun x => (word4 t3 t2 t1 t0, code, x)) else none
  | _ => none

/-- The body of this station's own beacon, from the clock at the mark (R85). -/
def beaconBody (s : State) : List Byte :=
  bytes4 s.clock.lineTime ++ [s.station.setup.periodCode, clockStateByte s.clock.state]

end Sys2Proof.Machine
end

