-- ==== Sys2Proof/Machine/Reception.lean ====
section
/-! DEFINITION. The frame decoder at the evaluation point (R113 to R120, R162, R166, R174, R75) and the delivery of outcomes (R121, R122,
R159, R166, R175); the abort of a frame by a line fault (R105 to R109). -/

namespace Sys2Proof.Machine

/-! ### LINE_ERROR -/

/-- R109: the fields are those of the event; kind and sender are those of the frame on the line, once sampled. -/
def lineErrorNotice (cause : LineErrorCause) (wire : Option Wire) (s : State) : Notice :=
  if s.line.inFrame then
    .lineError cause wire s.line.state s.line.position s.line.role s.decoder.kind s.decoder.sender s.clock.lineTime
  else .lineError cause wire s.line.state none .none none none s.clock.lineTime

/-! ### Peer reports -/

/-- R162: a record at a report. -/
def PeerRecord.heard (r : PeerRecord) (now : Time) (beacon : Bool) : PeerRecord :=
  { presence := .present, lastHeard := now, framesHeard := min Config.framesHeardMax (r.framesHeard + 1), silenceCount := 0,
    beaconSender := beacon || r.beaconSender }

/-- The record of a station ID. -/
def State.peer (s : State) (id : Byte) : PeerRecord := if id = 0 then .reset else s.peers.getD (id.toNat - 1) .reset

/-- R162, R165: a frame heard from another station. -/
def hearPeer (id : Byte) (beacon : Bool) (s : State) : State :=
  let r := s.peer id
  let r' := r.heard s.clock.lineTime beacon
  let s' := s.withPeers (s.peers.set (id.toNat - 1) r')
  if r.presence = .present then s'
  else notify (.peer id r.presence .present r'.lastHeard r'.framesHeard s.clock.lineTime) s'

/-- R119, R166: a foreign-own-ID frame raises the duplicate ID. -/
def raiseDuplicate (s : State) : State :=
  match s.station.state with
  | .listen => s.withStation { s.station with dupPending := true }
  | .active => s.withStation { s.station with dupPending := true }
  | .silent => s
  | .setup => s
  | .halted => s

/-- R119: the peer table is told of an intact frame with a GOOD header that this station did not send. -/
def reportFrame (s : State) : State :=
  if s.decoder.ownFrame then s
  else if s.decoder.foreignOwnId then raiseDuplicate s
  else hearPeer (s.decoder.sender.getD 0) (s.decoder.kind == some 0) s

/-! ### The owners' answers -/

/-- R75, R82. -/
def answerBeacon (s : State) : State :=
  match parseBeacon s.rxBody with
  | none => notify (lineErrorNotice .form none s) (s.answer .none)
  | some (t, code, st) =>
    if code ≠ s.station.setup.periodCode then
      notify (.configMismatch (s.decoder.sender.getD 0) code s.station.setup.periodCode s.clock.lineTime) (s.answer .none)
    else if s.decoder.ownFrame ∨ s.decoder.foreignOwnId then s.answer .take
    else (s.withClock { s.clock with beacon := some ⟨s.decoder.sender.getD 0, t, st, s.clock.markTime⟩ }).answer .take

/-- R174. -/
def answerMessage (s : State) : State :=
  if s.station.state ≠ .active then s.answer .none
  else if s.rxBody = [] then notify (lineErrorNotice .form none s) (s.answer .none)
  else if s.port.hasFree then
    (s.withPort { s.port with reservation := some ⟨s.decoder.sender.getD 0, s.decoder.scope⟩ }).answer .take
  else (s.withPort (s.port.mark NoticeClass.message.index).drop).answer .veto

/-- R118: the owner's answer, or NONE where the frame is handed to none. -/
def answerFrame (s : State) : State :=
  match s.decoder.kind with
  | some k =>
    if k = 0 then answerBeacon s
    else if !s.decoder.addressed then s.answer .none
    else if k = 1 then answerWithdraw s
    else if k = 2 then answerCue s
    else answerMessage s
  | none => s.answer .none

/-! ### The evaluation point -/

/-- The line at the evaluation point: ANSWERING, and a comparison that survived the check has WON (R98, R100). -/
def Line.atEvaluation (l : Line) : Line :=
  { l with state := .answering, arbitration := if l.arbitration = .contending then .won else l.arbitration }

/-- The decoder's flags at the evaluation point (R113, R115 to R117, R119). -/
def Decoder.judged (d : Decoder) (intact : Bool) (l : Line) (st : Station) : Decoder :=
  if intact then
    let header := headerStatusOf (d.kind.getD 0) (d.sender.getD 0) d.scope (d.length.getD 0)
    if header = .good then
      { d with checkStatus := .intact, headerStatus := .good, addressed := addresses st d.scope,
               foreignOwnId := d.sender == some st.id && !(d.ownFrame && l.arbitration == .won) }
    else { d with checkStatus := .intact, headerStatus := header }
  else { d with checkStatus := .failed }

/-- R120: the decoder's one answer, with all that the evaluation changes and queues. -/
def decideAnswer (s : State) : State :=
  match s.decoder.checkStatus with
  | .failed => s.answer .veto
  | .pending => s.answer .veto
  | .intact =>
    match s.decoder.headerStatus with
    | .good => eitherOrder reportFrame answerFrame s
    | .kind => notify (lineErrorNotice .kind none s) (s.answer .none)
    | .form => notify (lineErrorNotice .form none s) (s.answer .none)
    | .pending => s.answer .none

/-- The evaluation point (R120). -/
def evaluationPoint (s : State) : State :=
  let s := s.withWork { s.work with evaluate := false }
  let s := s.withLine s.line.atEvaluation
  decideAnswer (s.withDecoder (s.decoder.judged (decide (s.rxCheck = s.decoder.checkAcc)) s.line s.station))

/-! ### Outcomes -/

/-- R175: the reservation ends with its frame. -/
def hostPortOutcome (o : Outcome) (s : State) : State :=
  match s.port.reservation with
  | none => s
  | some r =>
    let s' := s.withPort { s.port with reservation := none }
    match o with
    | .commit => notify (.message r.sender r.scope s.clock.lineTime s.rxBody) s'
    | .void => s'
    | .unheard => s'
    | .aborted => s'

/-- R121, R122: the outcome goes to the frame's owner. -/
def deliverToOwner (o : Outcome) (s : State) : State :=
  match s.decoder.owner with
  | .lineClock => lineClockOutcome o s
  | .cueTable => cueTableOutcome o s
  | .hostPort => hostPortOutcome o s
  | .none => s

/-- R121: the outcome two slot values give. -/
def outcomeOf (take veto : Level) : Outcome :=
  match veto, take with
  | .low, _ => .void
  | .high, .low => .commit
  | .high, .high => .unheard

/-- R102: the sender's outcome of the same slots. -/
def attemptOf : Outcome → AttemptOutcome
  | .commit => .accepted
  | .void => .refused
  | .unheard => .unheard
  | .aborted => .broken

/-- A sender that still holds or contends for its frame (R102, R108). -/
def Line.sendsFrame (l : Line) : Bool :=
  match l.role, l.arbitration with
  | .sender, .contending => true
  | .sender, .won => true
  | _, _ => false

/-- R121, R159, R166: after the outcome has acted, station control's own reactions to it, and the decoder record emptied. A forward
step that the outcome brought is worked by its readers after these reactions: that a pending LEAVE or duplicate ID makes the station
SILENT, with its STATION and SEND_DONE notices and what it adds to the issued list, before the step fires and ages anything is the
model's choice (log entry 35). -/
def closeFrame (s : State) : State :=
  let s' :=
    if s.station.dupPending then enterSilent .duplicateId s.decoder.kind s
    else if s.station.leavePending then enterSilent .leave none s
    else s
  s'.withDecoder .reset

/-- The line interface record when a frame is over for this station. -/
def Line.frameOver (l : Line) (next : LineState) : Line :=
  { l with state := next, role := .none, arbitration := .none, position := none, frameLength := none, ownAnswer := .none,
           stretch := .none, takeSlot := none, vetoSlot := none, idleCount := 0, stallTime := 0, tx := [],
           halfPeriod := .none, drivesPace := false, drivesData := false, driving := false, answered := false }

/-- R101, R102, R121: the slots' outcome is delivered; the owner and the send unit act in either order, station control after them, and
the readers of a step (R78) last (log entries 30 and 35). -/
def deliverOutcome (take veto : Level) (s : State) : State :=
  let sends := s.line.sendsFrame
  let o := outcomeOf take veto
  closeFrame (eitherOrder (deliverToOwner o) (fun s => if sends then attemptOutcome (attemptOf o) s else s)
    (s.withLine (s.line.frameOver .waitIdle)))

/-- R108, R122: a fault aborts the frame on the line. -/
def abortFrame (cause : LineErrorCause) (wire : Option Wire) (s : State) : State :=
  let sends := s.line.sendsFrame
  let err := lineErrorNotice cause wire s
  let s := deliverToOwner .aborted (s.withLine (s.line.frameOver .recover))
  let s := s.withWork { s.work with arbLost := false, evaluate := false }
  closeFrame (eitherOrder (fun s => if sends then attemptOutcome .broken s else s) (notify err) s)

/-- R98: the arbitration is lost; this station goes on as a receiver. -/
def loseArbitration (s : State) : State :=
  let s := s.withWork { s.work with arbLost := false }
  let s := s.withLine { s.line with
    state := .receiving, role := .receiver, arbitration := .lost, tx := [], halfPeriod := .none, drivesPace := false,
    drivesData := false }
  attemptOutcome .lost (s.withDecoder { s.decoder with ownFrame := false })

end Sys2Proof.Machine
end

