-- ==== Sys2Proof/Machine/Settle.lean ====
section
/-! DEFINITION. Finishing an instant: what the last event set going at the same instant (State.work, and the offers of R131) comes about
before the next event that is not part of it (R50, R52, R70, R131; log entry 2). -/

namespace Sys2Proof.Machine

/-! ### The readers of an advance -/

/-- R143: the hold limit of one capture. -/
def holdLimitAt (adv : Advance) (c : Capture) : Capture :=
  match c with
  | .held t e extra holdEnd => if adv.reaches holdEnd then .expired t e extra else c
  | .empty => c
  | .expired .. => c

/-- R149: the end of one re-arm gap. -/
def gapEndAt (adv : Advance) (g : Option Time) : Option Time :=
  match g with
  | some t => if adv.reaches t then none else g
  | none => none

/-- R143 and R149 for every input. -/
def advanceInputs (adv : Advance) (s : State) : State :=
  s.withInputs (fourMap (fun i => { i with capture := holdLimitAt adv i.capture, gapEnd := gapEndAt adv i.gapEnd }) s.inputs)

/-- The rest of the readers' work for the advance in hand (R70). -/
def finishAdvance (s : State) : State :=
  match s.work.advance with
  | some adv => advanceInputs adv (ageIssued adv (fireAdvance adv (s.withWork { s.work with advance := none })))
  | none => s

/-- The due time in hand is taken (R72). -/
def finishDue (s : State) : State :=
  if s.work.due then dueTime (s.withWork { s.work with due := false }) else s

/-- What the sample of a bit left: the loss of arbitration, then the evaluation point. -/
def finishSample (s : State) : State :=
  let s := if s.work.arbLost then loseArbitration s else s
  if s.work.evaluate then evaluationPoint s else s

/-- Everything in hand; the firing unit and the line clock act in either order. -/
def finishWork (s : State) : State :=
  if s.work = Work.none then s else eitherOrder finishAdvance finishDue (finishSample s)

/-- Finish the instant: what is in hand, then the offers this instant calls for. -/
def settle (s : State) : State := makeOffers (finishWork s)

/-- Nothing is in hand and no offer is called for: the instant is finished. -/
def State.settled (s : State) : Bool := decide (s.work = Work.none) && !s.headOfferDue && !s.beaconOfferDue

end Sys2Proof.Machine
end

