-- ==== Sys2Proof/Machine/Triggers.lean ====
section
/-! DEFINITION. The trigger unit: edges and captures (R141, R142), emission (R147 to R150), templates at JOIN (R146), and the host's
commands LOAD_TRIGGER (R146) and READ_CAPTURE (R144) as they act on its records. -/

namespace Sys2Proof.Machine

/-- R141: the edge a change to `v` is, if the selection takes it. -/
def edgeOf (sel : Selection) (v : Level) : Option Edge :=
  match sel, v with
  | .off, _ => none
  | .rise, .high => some .rise
  | .rise, .low => none
  | .fall, .low => some .fall
  | .fall, .high => none
  | .both, .high => some .rise
  | .both, .low => some .fall

/-- R142. -/
def captureEdge (now : Time) (e : Edge) (c : Capture) : Capture :=
  match c with
  | .empty => .held now e 0 (now + BitVec.ofNat 32 Config.holdLimit)
  | .expired .. => .held now e 0 (now + BitVec.ofNat 32 Config.holdLimit)
  | .held t e' extra holdEnd => .held t e' (min Config.extraMax (extra + 1)) holdEnd

/-- R147: what the send unit makes of an emission at this instant. -/
def emissionOutcome (s : State) : TriggerOutcome :=
  match s.station.state with
  | .listen => if s.synced then (if s.send.queueRoom && s.send.serialRoom then .queued else .droppedFull) else .droppedUnsynced
  | .active => if s.synced then (if s.send.queueRoom && s.send.serialRoom then .queued else .droppedFull) else .droppedUnsynced
  | .silent => .droppedState
  | .setup => .droppedState
  | .halted => .droppedState

/-- R149: the gap end that an emission sets; a gap of 0 sets none. -/
def gapEndOf (now : Time) (gap : Nat) : Option Time := if gap = 0 then none else some (now + BitVec.ofNat 32 gap)

/-- R147 to R150: the emission test past step 1. -/
def emit (i : Fin 4) (t : Template) (e : Edge) (s : State) : State :=
  let now := s.clock.lineTime
  let fire := now + t.lead.setWidth 32
  match emissionOutcome s with
  | .queued =>
    let input := fourGet s.inputs i
    let s' := joinCue 0 (.trigger i) t.scope (bytes4 fire ++ planBytes t.rep t.actions) s
    notify (.trigger i .queued s.send.nextSerial (some e) now fire now)
      (s'.withInputs (fourSet s'.inputs i { input with gapEnd := gapEndOf now input.gap }))
  | o => notify (.trigger i o 0 (some e) now fire now) s

/-- R142, R147: an edge acts on the capture, then is tested for emission. -/
def takeEdge (i : Fin 4) (e : Edge) (s : State) : State :=
  let input := fourGet s.inputs i
  let s := s.withInputs (fourSet s.inputs i { input with capture := captureEdge s.clock.lineTime e input.capture })
  match input.template with
  | some t => if input.gapEnd = none then emit i t e s else s
  | none => s

/-- R141: a change of level, seen from JOIN onward. The pin itself changes in every state. -/
def onTriggerEdge (i : Fin 4) (v : Level) (s : State) : State :=
  let s := s.withPins { s.pins with ti := fourSet s.pins.ti i v }
  if s.inReset ∨ s.station.joined = false ∨ (fourGet s.inputs i).level = v then s
  else
    let input := fourGet s.inputs i
    let s := s.withInputs (fourSet s.inputs i { input with level := v })
    match edgeOf input.selection v with
    | some e => takeEdge i e s
    | none => s

/-- TRIGGER_EDGE (R141). -/
def execTriggerEdge (input : Fin 4) (level : Level) (s : State) : Host.Outcome State Fault Refusal :=
  .next (onTriggerEdge input level (settle s))

/-- HOLD_LIMIT (R143): the advance in hand reaches this input's hold end. -/
def execHoldLimit (input : Fin 4) (s : State) : Host.Outcome State Fault Refusal :=
  .next (match s.work.advance with
    | some adv =>
      let i := fourGet s.inputs input
      s.withInputs (fourSet s.inputs input { i with capture := holdLimitAt adv i.capture })
    | none => s)

/-- GAP_END (R149): the advance in hand reaches this input's gap end. -/
def execGapEnd (input : Fin 4) (s : State) : Host.Outcome State Fault Refusal :=
  .next (match s.work.advance with
    | some adv =>
      let i := fourGet s.inputs input
      s.withInputs (fourSet s.inputs input { i with gapEnd := gapEndAt adv i.gapEnd })
    | none => s)

/-! ### JOIN's part (R140, R146) -/

/-- R146: the template JOIN keeps. -/
def keptTemplate (minLead : Nat) (t : Option Template) : Option Template :=
  match t with
  | some x => if x.lead.toNat < minLead then none else some x
  | none => none

/-- R140: an input record at JOIN. -/
def TriggerInput.joined (i : TriggerInput) (sel : Selection) (gap : Nat) (level : Level) (minLead : Nat) : TriggerInput :=
  { i with selection := sel, gap := gap, level := level, template := keptTemplate minLead i.template }

/-- R150: the TRIGGER notice of a template cleared at JOIN. -/
def clearedNotice (now : Time) (minLead : Nat) (i : Fin 4) (input : TriggerInput) : List Notice :=
  match input.template with
  | some x => if x.lead.toNat < minLead then [.trigger i .cleared 0 none 0 0 now] else []
  | none => []

/-- The TRIGGER notices of JOIN, TI0 first and TI3 last: R146, R150 and R157 give several of them no order (log entry 37). -/
def clearedNotices (s : State) : List Notice :=
  [0, 1, 2, 3].flatMap (fun i =>
    clearedNotice s.clock.lineTime s.station.setup.minLead i (fourGet s.inputs i))

/-- R140, R146: the trigger unit at JOIN. -/
def joinInputs (s : State) : State :=
  let r := s.station.setup
  s.withInputs
    ⟨s.inputs.t0.joined r.selections.t0 r.gaps.t0 s.pins.ti.t0 r.minLead,
     s.inputs.t1.joined r.selections.t1 r.gaps.t1 s.pins.ti.t1 r.minLead,
     s.inputs.t2.joined r.selections.t2 r.gaps.t2 s.pins.ti.t2 r.minLead,
     s.inputs.t3.joined r.selections.t3 r.gaps.t3 s.pins.ti.t3 r.minLead⟩

end Sys2Proof.Machine
end

