-- ==== Sys2Proof/Machine/HostPort.lean ====
section
/-! DEFINITION. The host port: transactions (R167 to R169), and every host command (R170 and the rule of each). `run…` is what the
command's owner does and answers; `exec…` is the meaning: the instant finished, the command taken in its transaction. -/

namespace Sys2Proof.Machine

/-! ### Transactions -/

/-- The port takes a command: in the transaction that NCS opened, before its command was taken (R167). With NCS high and no
transaction begun, a host command stands for the whole of its own transaction (log entry 7). -/
def State.takesCommand (s : State) : Bool :=
  !s.inReset && (s.port.phase == .command || (s.port.phase == .waiting && s.pins.ncs == .high))

/-- The command taken and its response fixed, no byte of it shifted out yet (R167). -/
def answerCommand (name : Option CommandName) (r : Response) (s : State) : State :=
  s.withPort { s.port with
    phase := if s.pins.ncs = .low then .results else .waiting, command := name, argsExpected := 0, args := [],
    response := some r, shifted := 0 }

/-- A further command byte and its arguments, `n` bytes in all, in a transaction whose command was taken: ignored, while the response
is shifted out (R167). -/
def ignoreBytes (n : Nat) (s : State) : State := if s.inReset then s else s.withPort (s.port.clocked n)

/-- A host command without arguments, taken at its command byte (R167). -/
def hostCommand (name : CommandName) (run : State → Response × State) (s : State) : State :=
  let s := settle s
  if s.takesCommand then answerCommand (some name) (run s).1 (run s).2 else ignoreBytes 1 s

/-- The transaction ends with the command not taken (R169). That the port record then holds no command is the model's choice (log
entry 15). -/
def cutShort (clocked : Bool) (s : State) : State :=
  s.withPort { (if clocked then s.port.mark portMark else s.port) with
    phase := .waiting, command := none, argsExpected := 0, args := [], response := none, shifted := 0 }

/-- The argument bytes already collected for a command: none of them where the port takes the command at this row; those of the port
record where the row carries the further argument bytes of the command in hand (R167; log entry 31). -/
def State.collected (s : State) (name : CommandName) : Option (List Byte) :=
  if s.takesCommand then some []
  else if !s.inReset && s.port.phase == .arguments && s.port.command == some name then some s.port.args
  else none

/-- `n` bytes shifted in, in the row of a command, after the byte at which it was taken: RESULTS bytes, which are ignored while they shift
out the response (R167, R168). With NCS high the row stands for the whole transaction (log entry 7), and the port is WAITING after it. -/
def trailingBytes (n : Nat) (s : State) : State :=
  let p := ({ s.port with phase := .results } : Port).clocked n
  s.withPort { p with phase := if s.pins.ncs = .low then p.phase else .waiting }

/-- R167, R168: a command with arguments: taken at its last argument byte, refused at a length field, or still collecting; the bytes
of the row after that are RESULTS bytes. -/
def shapedCommand (name : CommandName) (shape : List Byte → Shape) (run : List Byte → State → Response × State)
    (args : List Byte) (s : State) : State :=
  let s := settle s
  match s.collected name with
  | some got =>
    match shape (got ++ args) with
    | .taken xs =>
      trailingBytes ((got ++ args).length - xs.length) (answerCommand (some name) (run xs s).1 (run xs s).2)
    | .refused used => trailingBytes ((got ++ args).length - used) (answerCommand (some name) (refusal .form) s)
    | .collecting n =>
      if s.pins.ncs = .low then
        s.withPort { s.port with
          phase := .arguments, command := some name, argsExpected := n, args := got ++ args, response := none, shifted := 0 }
      else cutShort true s
  | none => ignoreBytes (1 + args.length) s

/-- TRANSACTION_BEGIN (R167): NCS falls; a full reset takes no transaction (R153). -/
def execTransactionBegin (s : State) : Host.Outcome State Fault Refusal :=
  let s := settle s
  let s' := s.withPins { s.pins with ncs := .low }
  .next (if s.inReset ∨ s.pins.ncs = .low then s'
    else s'.withPort { s.port with
      phase := .command, command := none, argsExpected := 0, args := [], response := none, shifted := 0 })

/-- TRANSACTION_CUT_SHORT (R169): NCS rises after `bits` bits, before the command is taken; after it, the command stands. With NCS high
and the port WAITING the row stands for its whole transaction, as a command row does (log entry 7). -/
def execTransactionCutShort (bits : Nat) (s : State) : Host.Outcome State Fault Refusal :=
  let s := settle s
  let s' := s.withPins { s.pins with ncs := .high }
  .next (if s.inReset then s'
    else match s.port.phase with
      | .command => cutShort (decide (bits ≠ 0)) s'
      | .arguments => cutShort true s'
      | .waiting => if s.pins.ncs = .high then cutShort (decide (bits ≠ 0)) s' else s'
      | .results => s'.withPort { s.port with phase := .waiting }
      | .done => s'.withPort { s.port with phase := .waiting })

/-- TRANSACTION_END (R167, R169): NCS rises; a command that was taken stands. That the port record keeps the command's name, its
response and the count of bytes shifted out until the next transaction is the model's choice (log entry 15). -/
def execTransactionEnd (s : State) : Host.Outcome State Fault Refusal :=
  let s := settle s
  let s' := s.withPins { s.pins with ncs := .high }
  .next (if s.inReset then s'
    else match s.port.phase with
      | .command => cutShort false s'
      | .arguments => cutShort true s'
      | .waiting => s'
      | .results => s'.withPort { s.port with phase := .waiting }
      | .done => s'.withPort { s.port with phase := .waiting })

/-- UNKNOWN_COMMAND (R168): a byte that names no command is taken at once and answered FORM. -/
def execUnknownCommand (code : Byte) (s : State) : Host.Outcome State Fault Refusal :=
  let s := settle s
  .next (if s.takesCommand then (if knownCode code then s else answerCommand none (refusal .form) s) else ignoreBytes 1 s)

/-! ### Station control's commands -/

/-- R156. -/
def runSetup (args : List Byte) (s : State) : Response × State :=
  if s.station.state ≠ .setup then (refusal .wrongState, s)
  else
    match parseSetup args with
    | some r => (okWith [], s.withStation { s.station with setup := r })
    | none => (refusal .form, s)

/-- SETUP (R156). -/
def execSetup (args : List Byte) (s : State) : Host.Outcome State Fault Refusal :=
  .next (shapedCommand .setup setupShape runSetup args s)

/-- R47: the points at JOIN. -/
def Points.joined (p : Points) (r : SetupRecord) : Points :=
  { p with owners := r.lineMask, levels := (p.levels &&& ~~~r.lineMask) ||| (r.initialLevels &&& r.lineMask) }

/-- R71, R81: the clock record at JOIN. -/
def Clock.joined (c : Clock) (r : SetupRecord) : Clock :=
  { c with
    beaconPeriod := Config.beaconPeriod r.periodCode.toNat,
    nextDue := some (firstMultipleAfter (Config.beaconPeriod r.periodCode.toNat) c.lineTime),
    window := .running, windowCount := 0 }

/-- R157. -/
def runJoin (s : State) : Response × State :=
  if s.station.state ≠ .setup then (refusal .wrongState, s)
  else
    let cleared := clearedNotices s
    let s := joinInputs s
    let s := s.withPoints (s.points.joined s.station.setup)
    let s := s.withClock (s.clock.joined s.station.setup)
    let s := s.withLine { s.line with state := .waitIdle, idleCount := 0 }
    (okWith [stationStateByte .listen], notifyAll cleared (enterState .listen .joined none s))

/-- JOIN (R157). -/
def execJoin (s : State) : Host.Outcome State Fault Refusal := .next (hostCommand .join runJoin s)

/-- R159. -/
def runLeave (s : State) : Response × State :=
  match s.station.state with
  | .halted => (refusal .wrongState, s)
  | .setup => (refusal .wrongState, s)
  | .silent => (refusal .wrongState, s)
  | .listen => leave s
  | .active => leave s
where
  /-- R159, in LISTEN and ACTIVE. -/
  leave (s : State) : Response × State :=
    if s.station.leavePending then (okWith [1], s)
    else if s.line.role = .sender then (okWith [1], s.withStation { s.station with leavePending := true })
    else (okWith [0], enterSilent .leave none s)

/-- LEAVE (R159). -/
def execLeave (s : State) : Host.Outcome State Fault Refusal := .next (hostCommand .leave runLeave s)

/-- R151, R152: the station record at an entry to SETUP: straps sampled, the SETUP record at its defaults. -/
def sampledStation (straps : Straps) : Station :=
  { state := if straps.id = 0 ∨ straps.id = 63 then .halted else .setup,
    id := straps.id.setWidth 8, eligible := straps.tke == .high,
    rate := (match straps.rate with | .low => .kbit125 | .high => .kbit500),
    setup := .default, leavePending := false, dupPending := false }

/-- Every block at its RESTART value (R154); what is not a block's state (pins, the model's order count, the queue) stays. -/
def restarted (straps : Straps) (s : State) : State :=
  { State.reset with
    pins := s.pins, station := sampledStation straps, points := applyAllRestores s.points, order := s.order, pending := s.pending }

/-- R154, R151, R152. -/
def runRestart (straps : Straps) (s : State) : Response × State :=
  let s' := restarted straps s
  (okWith ([stationStateByte s'.station.state, s'.station.id, boolByte s'.station.eligible, rateByte s'.station.rate]),
    if s'.station.state = .setup then notify (stationNotice (some s.station.state) .restart none s') s' else s')

/-- RESTART (R154). -/
def execRestart (straps : Straps) (s : State) : Host.Outcome State Fault Refusal :=
  .next (hostCommand .restart (runRestart straps) s)

/-- FULL_RESET (R153): every block at its full-reset value, whatever the station was doing. -/
def execFullReset (s : State) : Host.Outcome State Fault Refusal :=
  .next { State.reset with pins := { s.pins with nrst := .low }, order := s.order, pending := s.pending }

/-- RESET_RELEASE (R153, R151, R152). -/
def execResetRelease (straps : Straps) (s : State) : Host.Outcome State Fault Refusal :=
  let s := settle s
  .next (if s.inReset then
      let s' := (s.withPins { s.pins with nrst := .high }).withStation (sampledStation straps)
      if s'.station.state = .setup then notify (stationNotice none .reset none s') s' else s'
    else s)

/-! ### The send unit's commands -/

/-- R127: the answer of a SEND whose entry joined. -/
def sendOk (serial : Byte) (s : State) : Response × State := (okWith [serial, byteOf s.send.queue.length], s)

/-- R126, R127 for a CUE; `fields` is the body without the serial. -/
def runSendCue (handle mode number : Byte) (fields : List Byte) (s : State) : Response × State :=
  if s.synced = false then (refusal .wrongState, s)
  else
    match parseScope mode number, parseCue (0 :: fields) with
    | some scope, some _ =>
      if s.send.queueRoom = false then (refusal .full, s)
      else if s.send.serialRoom = false then (refusal .full, s)
      else sendOk s.send.nextSerial (joinCue handle .host scope fields s)
    | _, _ => (refusal .form, s)

/-- R126, R127 for a WITHDRAW. -/
def runSendWithdraw (handle serial : Byte) (s : State) : Response × State :=
  if s.send.queueRoom = false then (refusal .full, s)
  else
    match s.send.issued.find? (fun i => i.serial == serial) with
    | some i => sendOk serial (joinQueue (newEntry s handle .host .withdraw i.scope [serial] (some serial)) s)
    | none => (refusal .notFound, s)

/-- R126, R127 for a MESSAGE. -/
def runSendMessage (handle mode number : Byte) (payload : List Byte) (s : State) : Response × State :=
  match parseScope mode number with
  | some scope =>
    if payload = [] ∨ Config.bodyMax < payload.length then (refusal .form, s)
    else if s.send.queueRoom = false then (refusal .full, s)
    else sendOk 0 (joinQueue (newEntry s handle .host .message scope payload none) s)
  | none => (refusal .form, s)

/-- R126: LISTEN or ACTIVE, then what the kind calls for. -/
def runSend (args : List Byte) (s : State) : Response × State :=
  match s.station.state with
  | .halted => (refusal .wrongState, s)
  | .setup => (refusal .wrongState, s)
  | .silent => (refusal .wrongState, s)
  | .listen => send args s
  | .active => send args s
where
  /-- R126, steps 2 to 6. -/
  send (args : List Byte) (s : State) : Response × State :=
    match args with
    | handle :: kind :: mode :: number :: fields =>
      if kind = 2 then runSendCue handle mode number fields s
      else if kind = 1 then runSendWithdraw handle (fields.headD 0) s
      else runSendMessage handle mode number (fields.drop 1) s
    | _ => (refusal .form, s)

/-- SEND (R126). -/
def execSend (args : List Byte) (s : State) : Host.Outcome State Fault Refusal :=
  .next (shapedCommand .send sendShape runSend args s)

/-- R135: the queue after PURGE: the in-flight head, marked, or nothing. -/
def purgedQueue : List SendEntry → List SendEntry
  | e :: _ => if e.inFlight then [{ e with retire := true }] else []
  | [] => []

/-- R135: the entries that PURGE ends, in queue order. -/
def purgedEntries : List SendEntry → List SendEntry
  | e :: rest => if e.inFlight then rest else e :: rest
  | [] => []

/-- R135. -/
def runPurge (s : State) : Response × State :=
  if s.station.state = .halted then (refusal .wrongState, s)
  else
    let q := s.send.queue
    (okWith [byteOf (purgedEntries q).length, byteOf (purgedQueue q).length],
      endEntries .purged (purgedEntries q)
        (s.withSend { s.send with
          queue := purgedQueue q, offered := if s.send.offered = .head then .none else s.send.offered }))

/-- PURGE (R135). -/
def execPurge (s : State) : Host.Outcome State Fault Refusal := .next (hostCommand .purge runPurge s)

/-! ### The host port's own commands -/

/-- R177. -/
def runNextNotice (s : State) : Response × State :=
  if s.station.state = .halted then (refusal .wrongState, s)
  else
    match s.port.notices with
    | n :: rest => (okWith (byteOf rest.length :: n.bytes), s.withPort { s.port with notices := rest })
    | [] => (⟨.empty, [0]⟩, s)

/-- NEXT_NOTICE (R177). -/
def execNextNotice (s : State) : Host.Outcome State Fault Refusal := .next (hostCommand .nextNotice runNextNotice s)

/-- The bytes STATUS reports (R178). -/
def statusBytes (s : State) : List Byte :=
  [stationStateByte s.station.state, clockStateByte s.clock.state, refByte s.clock.refId] ++ bytes4 s.clock.lineTime ++
    [byteOf s.cues.armed.length, byteOf s.send.queue.length, byteOf s.send.issued.length, byteOf s.port.notices.length,
      boolByte s.port.reservation.isSome, byteOf s.port.dropped] ++ bytes2 s.port.seen ++
    [s.station.id, boolByte s.station.eligible, rateByte s.station.rate]

/-- R178. -/
def runStatus (s : State) : Response × State :=
  (okWith (statusBytes s), s.withPort { s.port with dropped := 0, seen := 0 })

/-- STATUS (R178). -/
def execStatus (s : State) : Host.Outcome State Fault Refusal := .next (hostCommand .status runStatus s)

/-! ### Reads of other blocks -/

/-- R83. -/
def runTime (s : State) : Response × State :=
  if s.station.state = .halted then (refusal .wrongState, s)
  else
    (okWith (bytes4 s.clock.lineTime ++
      [clockStateByte s.clock.state, refByte s.clock.refId, BitVec.ofInt 8 s.clock.slewRemainder]), s)

/-- TIME (R83). -/
def execTime (s : State) : Host.Outcome State Fault Refusal := .next (hostCommand .time runTime s)

/-- R48: the levels after SET_POINTS. -/
def Points.hostSet (p : Points) (mask levels : Word16) : Points :=
  { p with levels := (p.levels &&& ~~~(mask &&& ~~~p.owners)) ||| (levels &&& (mask &&& ~~~p.owners)) }

/-- R48. -/
def runSetPoints (mask levels : Word16) (s : State) : Response × State :=
  if s.station.state = .halted then (refusal .wrongState, s)
  else
    let p := s.points.hostSet mask levels
    (okWith (bytes2 (mask &&& s.points.owners) ++ bytes2 p.levels), s.withPoints p)

/-- SET_POINTS (R48). -/
def execSetPoints (mask levels : List Byte) (s : State) : Host.Outcome State Fault Refusal :=
  .next (shapedCommand .setPoints (exactly 4)
    (fun xs => runSetPoints (word2 (byteAt xs 0) (byteAt xs 1)) (word2 (byteAt xs 2) (byteAt xs 3))) (mask ++ levels) s)

/-- R49: the points that hold a pending restore. -/
def Points.restoreMask (p : Points) : Word16 := p.pulses.foldl (fun w r => setBit w r.point true) 0

/-- R49. -/
def runGetPoints (s : State) : Response × State :=
  if s.station.state = .halted then (refusal .wrongState, s)
  else
    (okWith (bytes2 s.points.levels ++ bytes2 s.points.owners ++ bytes2 s.points.restoreMask ++ bytes4 s.clock.lineTime), s)

/-- GET_POINTS (R49). -/
def execGetPoints (s : State) : Host.Outcome State Fault Refusal := .next (hostCommand .getPoints runGetPoints s)

/-- R15: an entry as LIST_CUE reports it. -/
def CueEntry.bytes (e : CueEntry) : List Byte :=
  [e.key.issuer, e.key.serial] ++ bytes4 e.fireTime ++ scopeBytes e.scope ++ planBytes e.rep e.actions ++
    [originByte e.origin, boolByte e.withdrawPending]

/-- R15. -/
def runListCue (index : Byte) (s : State) : Response × State :=
  if s.station.state = .halted then (refusal .wrongState, s)
  else
    match s.cues.armed[index.toNat]? with
    | some e => (okWith (byteOf s.cues.armed.length :: (bytes4 s.clock.lineTime ++ e.bytes)), s)
    | none => (⟨.notFound, byteOf s.cues.armed.length :: bytes4 s.clock.lineTime⟩, s)

/-- LIST_CUE (R15). -/
def execListCue (args : List Byte) (s : State) : Host.Outcome State Fault Refusal :=
  .next (shapedCommand .listCue (exactly 1) (fun xs => runListCue (byteAt xs 0)) args s)

/-- An ID of 1 to 62. -/
def stationIdOk (b : Byte) : Bool := decide (1 ≤ b.toNat) && decide (b.toNat ≤ 62)

/-- R16. -/
def runDropCue (issuer serial : Byte) (s : State) : Response × State :=
  if s.station.state = .halted then (refusal .wrongState, s)
  else if stationIdOk issuer = false then (refusal .form, s)
  else if (s.cues.provisional.map (fun e => e.key)) = some ⟨issuer, serial⟩ then (refusal .busy, s)
  else
    match s.cues.findArmed ⟨issuer, serial⟩ with
    | some e =>
      (okWith [], notify (.cueRemoved e.key .dropped e.fireTime e.count e.origin)
        (s.withCues { s.cues with armed := removeKey e.key s.cues.armed }))
    | none => (refusal .notFound, s)

/-- DROP_CUE (R16). -/
def execDropCue (issuer serial : List Byte) (s : State) : Host.Outcome State Fault Refusal :=
  .next (shapedCommand .dropCue (exactly 2) (fun xs => runDropCue (byteAt xs 0) (byteAt xs 1)) (issuer ++ serial) s)

/-- R164. -/
def runPeer (id : Byte) (s : State) : Response × State :=
  if s.station.state = .halted then (refusal .wrongState, s)
  else if stationIdOk id = false then (refusal .form, s)
  else if id = s.station.id then (refusal .notFound, s)
  else
    let r := s.peer id
    (okWith ([presenceByte r.presence] ++ bytes4 r.lastHeard ++ bytes2 (BitVec.ofNat 16 r.framesHeard) ++
      [byteOf r.silenceCount, boolByte r.beaconSender] ++ bytes4 s.clock.lineTime), s)

/-- PEER (R164). -/
def execPeer (args : List Byte) (s : State) : Host.Outcome State Fault Refusal :=
  .next (shapedCommand .peer (exactly 1) (fun xs => runPeer (byteAt xs 0)) args s)

/-! ### The trigger unit's commands -/

/-- Put a template on an input, or clear it; the answer tells whether an earlier one went (R146). -/
def putTemplate (i : Fin 4) (t : Option Template) (s : State) : Response × State :=
  let input := fourGet s.inputs i
  (okWith [byteOf i.val, boolByte input.template.isSome], s.withInputs (fourSet s.inputs i { input with template := t }))

/-- R146, steps 1 to 6. -/
def loadTemplate (args : List Byte) (s : State) : Response × State :=
  match args with
  | input :: mode :: number :: l1 :: l0 :: control :: rest =>
    if h : input.toNat < 4 then
      if control.extractLsb' 0 3 = 0 then putTemplate ⟨input.toNat, h⟩ none s
      else
        match parseScope mode number with
        | none => (refusal .form, s)
        | some scope =>
          if (word2 l1 l0).toNat < s.station.setup.minLead then (refusal .form, s)
          else
            match parseCue (0 :: (bytes4 0 ++ control :: rest)) with
            | some b => putTemplate ⟨input.toNat, h⟩ (some ⟨scope, word2 l1 l0, b.rep, b.actions⟩) s
            | none => (refusal .form, s)
    else (refusal .form, s)
  | _ => (refusal .form, s)

/-- R146. -/
def runLoadTrigger (args : List Byte) (s : State) : Response × State :=
  match s.station.state with
  | .halted => (refusal .wrongState, s)
  | .silent => (refusal .wrongState, s)
  | .setup => loadTemplate args s
  | .listen => loadTemplate args s
  | .active => loadTemplate args s

/-- LOAD_TRIGGER (R146). -/
def execLoadTrigger (args : List Byte) (s : State) : Host.Outcome State Fault Refusal :=
  .next (shapedCommand .loadTrigger loadTriggerShape runLoadTrigger args s)

/-- R140, R144: the level READ_CAPTURE reports: in SETUP the pin's, afterwards the record's, which follows it. -/
def shownLevel (s : State) (i : Fin 4) : Level :=
  if s.station.joined then (fourGet s.inputs i).level else fourGet s.pins.ti i

/-- R144: the bytes of a capture read. -/
def captureBytes (s : State) (i : Fin 4) (source : Byte) (t : Time) (e : Edge) (extra : Nat) : List Byte :=
  [byteOf i.val, source] ++ bytes4 t ++ [edgeByte e, byteOf extra, levelByte (shownLevel s i)] ++ bytes4 s.clock.lineTime

/-- R144, for an input that exists. -/
def readCaptureAt (i : Fin 4) (s : State) : Response × State :=
  let input := fourGet s.inputs i
  let emptied := s.withInputs (fourSet s.inputs i { input with capture := .empty })
  match input.capture with
  | .held t e extra _ => (okWith (captureBytes s i 0 t e extra), emptied)
  | .expired t e extra => (okWith (captureBytes s i 1 t e extra), emptied)
  | .empty => (⟨.empty, levelByte (shownLevel s i) :: bytes4 s.clock.lineTime⟩, s)

/-- R144. -/
def runReadCapture (input : Byte) (s : State) : Response × State :=
  if s.station.state = .halted then (refusal .wrongState, s)
  else if h : input.toNat < 4 then readCaptureAt ⟨input.toNat, h⟩ s
  else (refusal .form, s)

/-- READ_CAPTURE (R144). -/
def execReadCapture (args : List Byte) (s : State) : Host.Outcome State Fault Refusal :=
  .next (shapedCommand .readCapture (exactly 1) (fun xs => runReadCapture (byteAt xs 0)) args s)

end Sys2Proof.Machine
end

