-- ==== Sys2Proof/Machine/LineEvents.lean ====
section
/-! DEFINITION. The events of the cue line (The Cue Line; R110 to R113): start and end conditions, the sampled bits, the falls of PACE, a
pacer's half-periods, the answer, the idle gap, faults and recovery. Each definition `on…` is the event at a finished instant; the
meaning `exec…` finishes the instant first. -/

namespace Sys2Proof.Machine

/-! ### What a station sees on the wires (R105: a low time is set to 0, and its flag cleared, when the wire rises) -/

def Line.seePace (l : Line) (v : Level) : Line :=
  { l with paceWire := v, paceLow := if v = .high then .clear else l.paceLow }

def Line.seeData (l : Line) (v : Level) : Line :=
  { l with dataWire := v, dataLow := if v = .high then .clear else l.dataLow }

def Line.seeBothHigh (l : Line) : Line := (l.seePace .high).seeData .high

/-- R103: in RECOVER, both wires high lead to WAIT_IDLE. -/
def Line.recovered (l : Line) : Line := { l.seeBothHigh with state := .waitIdle, idleCount := 0 }

/-! ### Start condition -/

/-- R93: the line interface record at a start condition in IDLE. -/
def Line.started (l : Line) (own active : Bool) (tx : List Bool) : Line :=
  { (l.seeBothHigh).seeData .low with
    state := if own then .sending else .receiving,
    role := if own then .sender else .receiver,
    arbitration := if own then .contending else .none,
    position := some 0, frameLength := none, ownAnswer := .none, stretch := .none, takeSlot := none, vetoSlot := none,
    idleCount := 0, stallTime := 0, rx := [], tx := tx, halfPeriod := if own then .high else .none,
    drivesPace := false, drivesData := own, driving := active, answered := false, heldEnd := none }

/-- The bits of the frame that stands offered (R85, R124): the beacon's body is built at its own start condition. -/
def offeredBits (s : State) : List Bool :=
  match s.send.offered with
  | .beacon => frameBits 0 s.station.id ⟨.group, 0⟩ (beaconBody s)
  | .head => match s.send.queue with
    | e :: _ => frameBits e.kind.code s.station.id e.scope e.body
    | [] => []
  | .none => []

/-- R85, R124: what was offered is IN_FLIGHT from its start condition; any other offer lapses (R97). -/
def SendUnit.started (u : SendUnit) (own : Bool) : SendUnit :=
  if own then
    match u.offered with
    | .beacon => { u with slot := .inFlight, offered := .none }
    | .head => { u with
        queue := (match u.queue with | e :: rest => { e with inFlight := true } :: rest | [] => []), offered := .none }
    | .none => u
  else { u with offered := .none }

/-- R93, R97, R110, R74: a frame begins at this station. -/
def beginFrame (own : Bool) (s : State) : State :=
  let line := s.line.started own (s.station.state == .active) (if own then offeredBits s else [])
  let s := s.withLine line
  let s := s.withSend (s.send.started own)
  let s := s.withClock { s.clock with markTime := s.clock.lineTime, slewSinceMark := 0 }
  s.withDecoder { Decoder.reset with ownFrame := own }

/-- R93, R94, R107. -/
def onStartCondition (own : Bool) (s : State) : State :=
  match s.line.state with
  | .off => s
  | .idle => if own ∧ s.send.offered = .none then s else beginFrame own s
  | .waitIdle => s.withLine { (s.line.seeBothHigh).seeData .low with idleCount := 0 }
  | .recover => s.withLine ((s.line.seeBothHigh).seeData .low)
  | .sending => abortFrame .framing none (s.withLine ((s.line.seeBothHigh).seeData .low))
  | .receiving => abortFrame .framing none (s.withLine ((s.line.seeBothHigh).seeData .low))
  | .answering => abortFrame .framing none (s.withLine ((s.line.seeBothHigh).seeData .low))

/-! ### The sampled bits -/

/-- R111, R112: the decoder record once position `p` is sampled; `rx` holds the bits up to it. -/
def Decoder.sampled (d : Decoder) (p : Nat) (rx : List Bool) (b : Bool) : Decoder :=
  let fed : Bool := decide (p ≤ 23) || (match d.length with | some n => decide (p ≤ 23 + 8 * n) | none => false)
  let d : Decoder := { d with checkAcc := if fed then checkFeed d.checkAcc b else d.checkAcc }
  if p = 3 then
    let k := BitVec.ofNat 3 (natOfBits (rx.take 3))
    { d with kind := some k, owner := ownerOfKind k }
  else if p = 9 then { d with sender := some (BitVec.ofNat 8 (natOfBits ((rx.drop 3).take 6))) }
  else if p = 10 then { d with scopeMode := some (if b then .station else .group) }
  else if p = 18 then { d with scopeNumber := some (BitVec.ofNat 8 (natOfBits ((rx.drop 10).take 8))) }
  else if p = 23 then { d with length := some (natOfBits ((rx.drop 18).take 5)) }
  else d

/-- What comparing a sender's bit with the line gives (R98). -/
inductive Comparison where
  | goesOn
  | lost
  | broken
deriving DecidableEq, Repr

/-- R98: the bit sent at a position against the level read; only a sender that contends compares. -/
def Line.compare (l : Line) (p : Nat) (data : Level) : Comparison :=
  if l.state = .sending ∧ l.arbitration = .contending then
    match l.tx[p - 1]?, data with
    | some true, .low => .lost
    | some false, .high => .broken
    | _, _ => .goesOn
  else .goesOn

/-- R91: this station paces the bit on the line. -/
def Line.paces (l : Line) : Bool := l.state == .sending || (l.state == .answering && l.driving)

/-- R92, R96, R101: the line interface record at the rise that samples position `p`. -/
def Line.sampledAt (l : Line) (p : Nat) (data : Level) (length : Option Nat) : Line :=
  { (l.seePace .high).seeData data with
    position := some p, stallTime := 0, drivesPace := false, halfPeriod := if l.paces then .high else .none,
    frameLength := length.map frameLengthOf,
    rx := (match length with
      | some n => if p ≤ evalPosition n then l.rx ++ [levelBit data] else l.rx
      | none => l.rx ++ [levelBit data]),
    takeSlot := if length.map (fun n => evalPosition n + 1) = some p then some data else l.takeSlot,
    vetoSlot := (if length.map (fun n => evalPosition n + 2) = some p then some data else l.vetoSlot),
    stretch := l.stretch.letGo }

/-- A rise of PACE can be observed as the next sample of the frame: the frame has bits left, and this station does not hold PACE
low in its stretch for want of its answer (R100). -/
def Line.awaitsSample (l : Line) : Bool :=
  l.inFrame && !(l.stretch == .holding && !l.answered) &&
    (match l.frameLength with | some n => decide (l.position.getD 0 < n) | none => true)

/-- R92, R98, R107, R113: a bit of the frame is sampled. -/
def sampleFrameBit (data : Level) (s : State) : State :=
  let p := s.line.position.getD 0 + 1
  let rx := s.line.rx ++ [levelBit data]
  let verdict := s.line.compare p data
  let d := s.decoder.sampled p rx (levelBit data)
  let s := (s.withDecoder d).withLine (s.line.sampledAt p data d.length)
  match verdict with
  | .broken => abortFrame .framing none s
  | v =>
    if d.length.map frameLengthOf = some p ∧ data = .high then abortFrame .framing none s
    else s.withWork { s.work with arbLost := v == .lost, evaluate := decide (d.length.map evalPosition = some p) }

/-- R92; outside a frame the rise shows the wires only. -/
def onBitSample (data : Level) (s : State) : State :=
  if s.line.state = .off then s
  else if s.line.inFrame then
    if s.line.awaitsSample then sampleFrameBit data s else s
  else if s.line.state = .recover ∧ data = .high then s.withLine s.line.recovered
  else s.withLine ((s.line.seePace .high).seeData data)

/-! ### The falls of PACE and the half-periods -/

/-- The level a sender sends in the bit that begins after position `p`: pulled low for a 0 (R92). -/
def Line.sendsDominant (l : Line) (p : Nat) : Bool := l.tx[p]? == some false

/-- R91, R92, R100, R101: a fall of PACE that begins a bit. -/
def Line.bitBegun (l : Line) : Line :=
  let p := l.position.getD 0
  let l : Line := { l.seePace .low with stallTime := 0 }
  if l.state = .sending then
    { l with drivesPace := true, halfPeriod := .low, drivesData := l.sendsDominant p }
  else if l.state = .answering ∧ l.driving then
    let n := l.frameLength.getD 0
    let l : Line := { l with drivesPace := true, halfPeriod := .low }
    if p + 3 = n then
      { l with drivesData := l.answered && l.ownAnswer == .take, stretch := .holding }
    else if p + 2 = n then { l with drivesData := l.ownAnswer == .veto }
    else if p + 1 = n then { l with drivesData := l.role == .sender }
    else l
  else l

/-- R94: a fall of PACE in IDLE. -/
def Line.idleBroken (l : Line) : Line := { l.seePace .low with state := .waitIdle, idleCount := 0 }

/-- R91, R94, R96, R107. -/
def onPaceFall (s : State) : State :=
  match s.line.state with
  | .off => s
  | .waitIdle => s.withLine { s.line.seePace .low with idleCount := 0 }
  | .idle => (s.withLine s.line.idleBroken).withSend { s.send with offered := .none }
  | .recover => s.withLine (s.line.seePace .low)
  | .sending => s.withLine s.line.bitBegun
  | .receiving => s.withLine s.line.bitBegun
  | .answering =>
    if s.line.position = s.line.frameLength then abortFrame .framing none (s.withLine (s.line.seePace .low))
    else s.withLine s.line.bitBegun

/-- R91, R96, R100: the half-period this pacer times runs out. A stretch without its answer holds PACE past the low half; one with its
answer ends there. -/
def Line.halfPeriodOver (l : Line) : Line :=
  match l.halfPeriod with
  | .none => l
  | .low =>
    if l.stretch = .holding ∧ l.answered = false then { l with halfPeriod := .none }
    else { l with halfPeriod := .none, drivesPace := false, stretch := l.stretch.letGo }
  | .high =>
    if l.state = .answering ∧ l.position = l.frameLength then
      { l with halfPeriod := .none, drivesData := if l.role = .sender then false else l.drivesData }
    else { l with halfPeriod := .none, drivesPace := true }

/-! ### The answer and the end condition -/

/-- R100: the answer reaches the line interface. A driver in its stretch drives the take slot, and then lets PACE go, at once when its
own low half-period is over and else at its end. -/
def Line.answeredWith (l : Line) (a : Answer) : Line :=
  let l : Line := { l with ownAnswer := a, answered := true }
  if l.driving ∧ l.stretch = .holding then
    let l : Line := { l with drivesData := a == .take }
    if l.halfPeriod = .low then l else { l with drivesPace := false, stretch := .released }
  else l

/-- R100: the answer is ready; an end condition that had to wait for it is handed on. -/
def onAnswerReady (s : State) : State :=
  match s.decoder.answer with
  | none => s
  | some a =>
    match s.line.heldEnd with
    | some (take, veto) => deliverOutcome take veto (s.withLine { s.line with heldEnd := none })
    | none => if s.line.answered then s else s.withLine (s.line.answeredWith a)

/-- R101, R100, R107: DATA rises while PACE is high. -/
def onEndCondition (s : State) : State :=
  match s.line.state with
  | .off => s
  | .waitIdle => s.withLine (s.line.seeBothHigh)
  | .idle => s.withLine (s.line.seeBothHigh)
  | .recover => s.withLine s.line.recovered
  | .sending => abortFrame .framing none (s.withLine s.line.seeBothHigh)
  | .receiving => abortFrame .framing none (s.withLine s.line.seeBothHigh)
  | .answering =>
    if s.line.position = s.line.frameLength ∧ s.line.paceWire = .high then
      let take := s.line.takeSlot.getD .high
      let veto := s.line.vetoSlot.getD .high
      if s.line.answered then deliverOutcome take veto (s.withLine s.line.seeBothHigh)
      else s.withLine { s.line.seeBothHigh.frameOver .waitIdle with heldEnd := some (take, veto) }
    else abortFrame .framing none (s.withLine s.line.seeBothHigh)

/-! ### Idle, faults, recovery -/

/-- R94: both wires have been high for 12 bit times; the count waits for an end condition not yet handed on (R100). -/
def onLineIdle (s : State) : State :=
  if s.line.state = .waitIdle ∧ s.line.heldEnd = none then
    s.withLine { s.line.seeBothHigh with state := .idle, idleCount := Config.idleGap }
  else s

/-- R94. -/
def onPaceFallInIdle (s : State) : State :=
  if s.line.state = .idle then (s.withLine s.line.idleBroken).withSend { s.send with offered := .none } else s

/-- R94: a low level on a wire in WAIT_IDLE. -/
def onIdleCountReset (wire : Wire) (s : State) : State :=
  if s.line.state = .waitIdle then
    s.withLine { (match wire with | .pace => s.line.seePace .low | .data => s.line.seeData .low) with idleCount := 0 }
  else s

/-- The low timer of a wire. -/
def Line.lowTimer (l : Line) (w : Wire) : LowTimer := match w with | .pace => l.paceLow | .data => l.dataLow

/-- R105: the wire has been low for 2 ms, and the flag is set. -/
def Line.stuck (l : Line) (w : Wire) : Line :=
  match w with
  | .pace => { l with paceWire := .low, paceLow := ⟨Config.stuckLimit, true⟩ }
  | .data => { l with dataWire := .low, dataLow := ⟨Config.stuckLimit, true⟩ }

/-- R105: the wire rose: its low time is 0 and its flag clear. -/
def Line.rose (l : Line) (w : Wire) : Line :=
  match w with
  | .pace => { l with paceLow := .clear }
  | .data => { l with dataLow := .clear }

/-- R105: the low run that the fault is of has not been reported. -/
def Line.stuckIsNew (l : Line) (w : Wire) (risen : Bool) : Bool :=
  l.state != .off && !((if risen then l.rose w else l).lowTimer w).reported

/-- R105. A run that began with a rise which no row showed is told by `risen` (log entry 38). -/
def onStuckLow (wire : Wire) (risen : Bool) (s : State) : State :=
  if s.line.stuckIsNew wire risen = false then s
  else if s.line.inFrame then abortFrame .stuckLow (some wire) (s.withLine (s.line.stuck wire))
  else
    notify (lineErrorNotice .stuckLow (some wire) s)
      ((s.withLine { s.line.stuck wire with state := .recover, idleCount := 0 }).withSend { s.send with offered := .none })

/-- R106: PACE held low reaches the stuck limit at the same instant, and the one fault is then STUCK_LOW on PACE. -/
def onStall (s : State) : State :=
  if s.line.inFrame then
    if s.line.paceWire = .low then abortFrame .stuckLow (some .pace) (s.withLine (s.line.stuck .pace))
    else abortFrame .stall none s
  else s

/-- R107. -/
def onFraming (s : State) : State := if s.line.inFrame then abortFrame .framing none s else s

/-- R103. -/
def onRecoverEnd (s : State) : State := if s.line.state = .recover then s.withLine s.line.recovered else s

/-! ### The meanings -/

/-- START_CONDITION (R93, R97). -/
def execStartCondition (own : Bool) (s : State) : Host.Outcome State Fault Refusal := .next (onStartCondition own (settle s))

/-- ARBITRATION_LOST (R98): the loss that the bit just sampled brought. -/
def execArbitrationLost (s : State) : Host.Outcome State Fault Refusal :=
  .next (if s.work.arbLost then loseArbitration s else s)

/-- EVALUATION_POINT (R120): the evaluation that the bit just sampled brought. -/
def execEvaluationPoint (s : State) : Host.Outcome State Fault Refusal := .next (finishSample s)

/-- ANSWER_READY (R100). -/
def execAnswerReady (s : State) : Host.Outcome State Fault Refusal := .next (onAnswerReady (settle s))

/-- END_CONDITION (R121). -/
def execEndCondition (s : State) : Host.Outcome State Fault Refusal := .next (onEndCondition (settle s))

/-- LINE_IDLE (R94). -/
def execLineIdle (s : State) : Host.Outcome State Fault Refusal := .next (onLineIdle (settle s))

/-- PACE_FALL_IN_IDLE (R94). -/
def execPaceFallInIdle (s : State) : Host.Outcome State Fault Refusal := .next (onPaceFallInIdle (settle s))

/-- IDLE_COUNT_RESET (R94). -/
def execIdleCountReset (wire : Wire) (s : State) : Host.Outcome State Fault Refusal :=
  .next (onIdleCountReset wire (settle s))

/-- STUCK_LOW (R105). -/
def execStuckLow (run : LowRun) (s : State) : Host.Outcome State Fault Refusal :=
  .next (onStuckLow run.wire run.risen (settle s))

/-- STALL (R106). -/
def execStall (s : State) : Host.Outcome State Fault Refusal := .next (onStall (settle s))

/-- FRAMING (R107). -/
def execFraming (s : State) : Host.Outcome State Fault Refusal := .next (onFraming (settle s))

/-- RECOVER_END (R103). -/
def execRecoverEnd (s : State) : Host.Outcome State Fault Refusal := .next (onRecoverEnd (settle s))

/-- BIT_SAMPLE (R92). -/
def execBitSample (data : Level) (s : State) : Host.Outcome State Fault Refusal := .next (onBitSample data (settle s))

/-- PACE_FALL (R91). -/
def execPaceFall (s : State) : Host.Outcome State Fault Refusal := .next (onPaceFall (settle s))

/-- HALF_PERIOD_END (R91). -/
def execHalfPeriodEnd (s : State) : Host.Outcome State Fault Refusal :=
  .next ((settle s).withLine (settle s).line.halfPeriodOver)

end Sys2Proof.Machine
end

