-- ==== Sys2Proof/Machine/Times.lean ====
section
/-! DEFINITION. The meanings of the crystal's ticks and of what an advance of line time brings: TICK, SLEWED_TICK, FIRING, RESTORE,
AGE_OUT and the due times. -/

namespace Sys2Proof.Machine

/-- TICK (R67): a tick of the crystal; line time counts from the release of a full reset. -/
def execTick (s : State) : Host.Outcome State Fault Refusal :=
  .next (if (settle s).inReset then settle s else crystalTick (settle s))

/-- SLEWED_TICK (R77): the tick that would bring the slew phase to 32; where the slew calls for none, no such tick comes. -/
def execSlewedTick (s : State) : Host.Outcome State Fault Refusal :=
  .next (if (settle s).inReset ∨ (settle s).clock.slewDue = false then settle s else crystalTick (settle s))

/-- The next due item of the advance in hand. -/
def State.dueItem (s : State) : Option (Advance × DueItem) :=
  match s.work.advance with
  | some adv => (nextDueItem adv s).map (fun it => (adv, it))
  | none => none

/-- FIRING (R53): the next due item of the advance in hand is an entry, and it fires. -/
def execFiring (s : State) : Host.Outcome State Fault Refusal :=
  .next (match s.dueItem with
    | some (adv, .entry e rest) => fireEntry adv e rest s
    | some (_, .restores _) => s
    | none => s)

/-- RESTORE (R64): the next due item of the advance in hand is a time of restores, and they are applied. -/
def execRestore (s : State) : Host.Outcome State Fault Refusal :=
  .next (match s.dueItem with
    | some (adv, .restores d) => s.withPoints (applyRestores adv d s.points)
    | some (_, .entry _ _) => s
    | none => s)

/-- AGE_OUT (R130): the issued entries that the advance in hand goes beyond leave the list. -/
def execAgeOut (s : State) : Host.Outcome State Fault Refusal :=
  .next (match s.work.advance with
    | some adv => ageIssued adv s
    | none => s)

/-- BEACON_DUE_TIME (R72): the due time in hand. -/
def execBeaconDueTime (s : State) : Host.Outcome State Fault Refusal := .next (finishDue s)

/-- REFERENCE_LOST (R79): the due time in hand, when it brings the miss count to 3. -/
def execReferenceLost (s : State) : Host.Outcome State Fault Refusal :=
  .next (if s.clock.state = .following ∧ Config.missLimit ≤ s.clock.missCount + 1 then finishDue s else s)

/-- HOLDOVER_LIMIT (R80): the due time in hand, when it brings the holdover count to 64. -/
def execHoldoverLimit (s : State) : Host.Outcome State Fault Refusal :=
  .next (if s.clock.state = .holdover ∧ Config.holdoverLimit ≤ s.clock.holdoverCount + 1 then finishDue s else s)

/-- FIRST_LISTEN_EXPIRY (R81): the due time in hand, when it brings the window count to 4. -/
def execFirstListenExpiry (s : State) : Host.Outcome State Fault Refusal :=
  .next (if s.clock.state = .unsynced ∧ s.clock.window = .running ∧ Config.firstListenLimit ≤ s.clock.windowCount + 1 then
      finishDue s
    else s)

/-- PEER_SILENCE (R163): the due time in hand, when it brings this peer's silence count to 8. -/
def execPeerSilence (id : Byte) (s : State) : Host.Outcome State Fault Refusal :=
  .next (if (s.peer id).presence = .present ∧ Config.silenceLimit ≤ (s.peer id).silenceCount + 1 then finishDue s else s)

/-- OFFER_HEAD (R131): the instant's offer of the head, with its checks. -/
def execOfferHead (s : State) : Host.Outcome State Fault Refusal := .next (offerHead (finishWork s))

/-- OFFER_BEACON (R85): the instant's offer of the beacon in the slot. -/
def execOfferBeacon (s : State) : Host.Outcome State Fault Refusal := .next (offerBeacon (finishWork s))

end Sys2Proof.Machine
end

