-- ==== Sys2Proof/Machine/Dispatch.lean ====
section
/-! DEFINITION. The dispatcher: one arm for each row of spec/opcode_table.json. -/

namespace Sys2Proof.Machine

def exec (i : Instr) (s : State) : Host.Outcome State Fault Refusal :=
  match i with
  | .setup args => Sys2Proof.Machine.execSetup args s
  | .join => Sys2Proof.Machine.execJoin s
  | .leave => Sys2Proof.Machine.execLeave s
  | .restart straps => Sys2Proof.Machine.execRestart straps s
  | .send args => Sys2Proof.Machine.execSend args s
  | .purge => Sys2Proof.Machine.execPurge s
  | .nextNotice => Sys2Proof.Machine.execNextNotice s
  | .status => Sys2Proof.Machine.execStatus s
  | .time => Sys2Proof.Machine.execTime s
  | .setPoints mask levels => Sys2Proof.Machine.execSetPoints mask levels s
  | .getPoints => Sys2Proof.Machine.execGetPoints s
  | .listCue args => Sys2Proof.Machine.execListCue args s
  | .dropCue issuer serial => Sys2Proof.Machine.execDropCue issuer serial s
  | .loadTrigger args => Sys2Proof.Machine.execLoadTrigger args s
  | .readCapture args => Sys2Proof.Machine.execReadCapture args s
  | .peer args => Sys2Proof.Machine.execPeer args s
  | .unknownCommand code => Sys2Proof.Machine.execUnknownCommand code s
  | .transactionBegin => Sys2Proof.Machine.execTransactionBegin s
  | .transactionCutShort bits => Sys2Proof.Machine.execTransactionCutShort bits s
  | .fullReset => Sys2Proof.Machine.execFullReset s
  | .resetRelease straps => Sys2Proof.Machine.execResetRelease straps s
  | .tick => Sys2Proof.Machine.execTick s
  | .slewedTick => Sys2Proof.Machine.execSlewedTick s
  | .firing => Sys2Proof.Machine.execFiring s
  | .restore => Sys2Proof.Machine.execRestore s
  | .ageOut => Sys2Proof.Machine.execAgeOut s
  | .holdLimit input => Sys2Proof.Machine.execHoldLimit input s
  | .gapEnd input => Sys2Proof.Machine.execGapEnd input s
  | .beaconDueTime => Sys2Proof.Machine.execBeaconDueTime s
  | .referenceLost => Sys2Proof.Machine.execReferenceLost s
  | .holdoverLimit => Sys2Proof.Machine.execHoldoverLimit s
  | .firstListenExpiry => Sys2Proof.Machine.execFirstListenExpiry s
  | .peerSilence id => Sys2Proof.Machine.execPeerSilence id s
  | .triggerEdge input level => Sys2Proof.Machine.execTriggerEdge input level s
  | .offerHead => Sys2Proof.Machine.execOfferHead s
  | .offerBeacon => Sys2Proof.Machine.execOfferBeacon s
  | .startCondition own => Sys2Proof.Machine.execStartCondition own s
  | .arbitrationLost => Sys2Proof.Machine.execArbitrationLost s
  | .evaluationPoint => Sys2Proof.Machine.execEvaluationPoint s
  | .answerReady => Sys2Proof.Machine.execAnswerReady s
  | .endCondition => Sys2Proof.Machine.execEndCondition s
  | .lineIdle => Sys2Proof.Machine.execLineIdle s
  | .paceFallInIdle => Sys2Proof.Machine.execPaceFallInIdle s
  | .stuckLow run => Sys2Proof.Machine.execStuckLow run s
  | .stall => Sys2Proof.Machine.execStall s
  | .framing => Sys2Proof.Machine.execFraming s
  | .recoverEnd => Sys2Proof.Machine.execRecoverEnd s
  | .bitSample data => Sys2Proof.Machine.execBitSample data s
  | .paceFall => Sys2Proof.Machine.execPaceFall s
  | .halfPeriodEnd => Sys2Proof.Machine.execHalfPeriodEnd s
  | .transactionEnd => Sys2Proof.Machine.execTransactionEnd s
  | .idleCountReset wire => Sys2Proof.Machine.execIdleCountReset wire s

end Sys2Proof.Machine
end

