-- ==== Sys2Proof/Safety.lean ====
section
/-! DEFINITION. What the manual says holds of the station at every instant, as predicates of a state: the bounds of the notice
queue, of the send unit, of the cue table and pulse list, of the clock record, of the peer and capture counts, and when the
station may drive the line. Each is kept by every step from every state that meets it. -/

namespace Sys2Proof.Machine

/-! ### Words of the statements -/

/-- The instant is finished and the port takes a command (log entries 2 and 7). -/
abbrev State.Ready (s : State) : Prop := s.settled = true ∧ s.takesCommand = true

/-- The state a command or event leaves. -/
def State.after (c : Instr) (s : State) : State :=
  match exec c s with
  | .next t => t
  | .fault _ => s
  | .refused _ => s

/-- The state a run of commands and events leaves. -/
def State.afterAll (cs : List Instr) (s : State) : State := cs.foldl (fun s c => s.after c) s

/-- The events that begin at a finished instant, all but those that finish one and the full reset (log entry 2). -/
def startsInstant : Instr → Bool
  | .fullReset => false
  | .firing => false
  | .restore => false
  | .ageOut => false
  | .holdLimit _ => false
  | .gapEnd _ => false
  | .beaconDueTime => false
  | .referenceLost => false
  | .holdoverLimit => false
  | .firstListenExpiry => false
  | .peerSilence _ => false
  | .offerHead => false
  | .offerBeacon => false
  | .arbitrationLost => false
  | .evaluationPoint => false
  | .setup _ => true
  | .join => true
  | .leave => true
  | .restart _ => true
  | .send _ => true
  | .purge => true
  | .nextNotice => true
  | .status => true
  | .time => true
  | .setPoints _ _ => true
  | .getPoints => true
  | .listCue _ => true
  | .dropCue _ _ => true
  | .loadTrigger _ => true
  | .readCapture _ => true
  | .peer _ => true
  | .unknownCommand _ => true
  | .transactionBegin => true
  | .transactionCutShort _ => true
  | .resetRelease _ => true
  | .tick => true
  | .slewedTick => true
  | .triggerEdge _ _ => true
  | .startCondition _ => true
  | .answerReady => true
  | .endCondition => true
  | .lineIdle => true
  | .paceFallInIdle => true
  | .stuckLow _ => true
  | .stall => true
  | .framing => true
  | .recoverEnd => true
  | .bitSample _ => true
  | .paceFall => true
  | .halfPeriodEnd => true
  | .transactionEnd => true
  | .idleCountReset _ => true

/-- The commands of the host port, the byte that names none among them. -/
def isHostCommand : Instr → Bool
  | .setup _ => true
  | .join => true
  | .leave => true
  | .restart _ => true
  | .send _ => true
  | .purge => true
  | .nextNotice => true
  | .status => true
  | .time => true
  | .setPoints _ _ => true
  | .getPoints => true
  | .listCue _ => true
  | .dropCue _ _ => true
  | .loadTrigger _ => true
  | .readCapture _ => true
  | .peer _ => true
  | .unknownCommand _ => true
  | .transactionBegin => false
  | .transactionCutShort _ => false
  | .fullReset => false
  | .resetRelease _ => false
  | .tick => false
  | .slewedTick => false
  | .firing => false
  | .restore => false
  | .ageOut => false
  | .holdLimit _ => false
  | .gapEnd _ => false
  | .beaconDueTime => false
  | .referenceLost => false
  | .holdoverLimit => false
  | .firstListenExpiry => false
  | .peerSilence _ => false
  | .triggerEdge _ _ => false
  | .offerHead => false
  | .offerBeacon => false
  | .startCondition _ => false
  | .arbitrationLost => false
  | .evaluationPoint => false
  | .answerReady => false
  | .endCondition => false
  | .lineIdle => false
  | .paceFallInIdle => false
  | .stuckLow _ => false
  | .stall => false
  | .framing => false
  | .recoverEnd => false
  | .bitSample _ => false
  | .paceFall => false
  | .halfPeriodEnd => false
  | .transactionEnd => false
  | .idleCountReset _ => false

/-- The station is about to sample the first bit of another station's frame. -/
abbrev State.hearing (s : State) : Prop :=
  s.work = Work.none ∧ s.line.state = .receiving ∧ s.line.position = some 0 ∧ s.line.frameLength = none ∧ s.line.rx = [] ∧
    s.line.stretch = .none ∧ s.decoder = Decoder.reset

/-- R168: the host port itself answers FORM. -/
def shapeRefused (c : Instr) : Prop :=
  match c with
  | .setup args => ∃ used, setupShape args = .refused used
  | .send args => ∃ used, sendShape args = .refused used
  | .loadTrigger args => ∃ used, loadTriggerShape args = .refused used
  | .unknownCommand _ => True
  | _ => False

/-- The argument bytes that a command calls for (R167, R168; Formats); none for a command without arguments. -/
def argumentShape : CommandName → List Byte → Shape
  | .setup => setupShape
  | .send => sendShape
  | .loadTrigger => loadTriggerShape
  | .setPoints => exactly 4
  | .dropCue => exactly 2
  | .listCue => exactly 1
  | .readCapture => exactly 1
  | .peer => exactly 1
  | .join => exactly 0
  | .leave => exactly 0
  | .restart => exactly 0
  | .purge => exactly 0
  | .nextNotice => exactly 0
  | .status => exactly 0
  | .time => exactly 0
  | .getPoints => exactly 0

/-- R138: the SEND_DONE of an entry, as its fields stand, that ends with this outcome. -/
def State.doneWith (s : State) (o : SendOutcome) (e : SendEntry) : Notice :=
  .sendDone e.handle e.source e.kind (e.serial.getD 0) o (s.station.setup.sendAttempts - e.attemptsLeft) e.losses
    (decide (e.kind = .cue) && (decide (o = .accepted) || e.brokenSeen)) s.clock.lineTime

/-- R142: a capture after an edge at this line time. -/
def caughtAt (now : Time) (edge : Edge) : Capture → Capture
  | .held time first extra holdEnd => .held time first (min 15 (extra + 1)) holdEnd
  | .expired .. => .held now edge 0 (now + 4096)
  | .empty => .held now edge 0 (now + 4096)

/-- R93, R96, R101, R107: the rows that show a change of the wires which the frame on the line does not allow there. -/
def State.breaksFrame (s : State) (c : Instr) : Prop :=
  c = .framing ∨ (∃ own, c = .startCondition own) ∨
    (c = .endCondition ∧ ¬(s.line.state = .answering ∧ s.line.position = s.line.frameLength ∧ s.line.paceWire = .high)) ∨
    (c = .paceFall ∧ s.line.state = .answering ∧ s.line.position = s.line.frameLength)

/-- R105 to R107, R93, R96: this row raises the fault `cause`, with this wire, on the frame on the line. FRAMING comes of its own row, of a
start condition inside a frame, of an end condition before its place and of a fall of PACE after the end bit (log entries 11 and 29);
what BIT_SAMPLE shows is stated with the bits. -/
def State.raises (s : State) (c : Instr) (cause : LineErrorCause) (wire : Option Wire) : Prop :=
  s.line.inFrame = true ∧
    ((s.breaksFrame c ∧ cause = .framing ∧ wire = none) ∨
      (c = .stall ∧ s.line.paceWire = .high ∧ cause = .stall ∧ wire = none) ∨
      (c = .stall ∧ s.line.paceWire = .low ∧ cause = .stuckLow ∧ wire = some .pace) ∨
      ∃ w risen, c = .stuckLow ⟨w, risen⟩ ∧ (risen = true ∨ (s.line.lowTimer w).reported = false) ∧ cause = .stuckLow ∧
        wire = some w)

/-- An end condition is due at the frame on the line: the end bit is sampled, PACE is high, and these are the slot values (R101). -/
def State.atEnd (s : State) (take veto : Level) : Prop :=
  s.settled = true ∧ s.line.state = .answering ∧ s.line.position = s.line.frameLength ∧ s.line.paceWire = .high ∧
    s.line.takeSlot = some take ∧ s.line.vetoSlot = some veto

/-- R133: the issued entries that ending these entries without an ACCEPTED adds: those of the CUEs that were BROKEN once. -/
def issuedByEnding (es : List SendEntry) : List Issued :=
  (es.filter (fun e => e.kind == .cue && e.brokenSeen)).map (fun e => ⟨e.serial.getD 0, e.scope, lastFireOf e.body⟩)

/-- The level a bit stands for (R182). -/
def bitLevel (b : Bool) : Level := if b then .high else .low

/-- A tick that moves line time by `size` and leaves the slew as given: the advance is handed on, and a due time is taken when the
next due time is not after the new line time (R70, R71, R77). -/
def State.atTick (s : State) (size : Nat) (remainder : Int) (phase : Nat) (sinceMark : Int) : State :=
  let now := s.clock.lineTime + BitVec.ofNat 32 size
  let due : Bool := match s.clock.nextDue with
    | some d => decide (size ≠ 0) && !isAfter d now
    | none => false
  (s.withClock { s.clock with
      lineTime := now, slewRemainder := remainder, slewPhase := phase, slewSinceMark := sinceMark,
      nextDue := if due then some (firstMultipleAfter s.clock.beaconPeriod now) else s.clock.nextDue }).withWork
    { Work.none with advance := if size = 0 then none else some ⟨s.clock.lineTime, size⟩, due := due }

/-- The bit just sampled was the last check bit of the frame, and nothing else is in hand. -/
abbrev State.atLastCheckBit (s : State) : Prop := s.work = { Work.none with evaluate := true }

/-- The frame arrived intact, with these header fields and a GOOD header (R113, R116). -/
def State.goodFrame (s : State) (kind : BitVec 3) (sender : Byte) (scope : Scope) : Prop :=
  s.rxCheck = s.decoder.checkAcc ∧ s.decoder.kind = some kind ∧ s.decoder.sender = some sender ∧
    s.decoder.scopeMode = some scope.mode ∧ s.decoder.scopeNumber = some scope.number ∧
    headerStatusOf kind sender scope (s.decoder.length.getD 0) = .good

/-- Between the two states nothing changed but the line interface, the decoder, the bits just sampled and the wires. -/
def sameBesidesLine (s t : State) : Prop :=
  t.pins = s.pins ∧ t.station = s.station ∧ t.clock = s.clock ∧ t.cues = s.cues ∧ t.points = s.points ∧ t.send = s.send ∧
    t.inputs = s.inputs ∧ t.peers = s.peers ∧ t.port = s.port ∧ t.work.advance = s.work.advance ∧ t.work.due = s.work.due

/-- R163: a peer record at a due time. -/
def agedRecord (r : PeerRecord) : PeerRecord :=
  if r.presence = .present then
    if r.silenceCount < 7 then { r with silenceCount := r.silenceCount + 1 }
    else { r with presence := .silent, silenceCount := 8, beaconSender := false }
  else r

/-- Between the two states nothing changed but the clock record, the station state, the beacon slot, the peer records, the port and
what is in hand: the blocks a due time does not reach (R72). -/
def sameBesidesDueTime (s t : State) : Prop :=
  t.pins = s.pins ∧ t.cues = s.cues ∧ t.points = s.points ∧ t.line = s.line ∧ t.decoder = s.decoder ∧ t.inputs = s.inputs ∧
    t.send = { s.send with slot := t.send.slot } ∧ t.station = { s.station with state := t.station.state } ∧
    t.work = { s.work with due := false }

/-! ### Invariants -/

/-- R171, R172: at most 16 records, the reserved one included; the dropped count saturates. -/
abbrev Port.Safe (p : Port) : Prop := p.used ≤ Config.noticeCapacity ∧ p.dropped ≤ Config.droppedMax

/-- The serials held by the CUE entries of the queue and by the issued list (R128). -/
def SendUnit.cueSerials (u : SendUnit) : List Byte :=
  (u.queue.filter (fun e => e.kind == .cue)).map (fun e => e.serial.getD 0) ++ u.issued.map (fun i => i.serial)

/-- R124, R126, R128: at most 8 entries, none but the head in flight; at most 32 serials issued or held by queued CUEs, no two of
them equal; every queued CUE and WITHDRAW has a serial. -/
abbrev SendUnit.Safe (u : SendUnit) : Prop :=
  u.queue.length ≤ Config.sendCapacity ∧ (∀ e ∈ u.queue.tail, e.inFlight = false) ∧
    u.issued.length + u.queuedCues ≤ Config.issuedCapacity ∧ u.cueSerials.Nodup ∧
    ∀ e ∈ u.queue, e.kind ≠ .message → e.serial.isSome = true

/-- The keys held, the provisional entry's first (R2). -/
def CueTable.keys (t : CueTable) : List Key := (t.provisional.toList ++ t.armed).map (fun e => e.key)

/-- The station states in which the table may hold entries and restores may be pending (R14, R66). -/
def StationState.keepsCues : StationState → Bool
  | .active => true
  | .silent => true
  | .halted => false
  | .setup => false
  | .listen => false

/-- R5, R6: an entry's 1 to 4 actions, no width of 0, and a repeat part with neither period nor count 0. -/
abbrev CueEntry.Whole (e : CueEntry) : Prop :=
  1 ≤ e.actions.length ∧ e.actions.length ≤ 4 ∧ (∀ a ∈ e.actions, a.ok = true) ∧ ∀ r ∈ e.rep, r.period ≠ 0 ∧ r.count ≠ 0

/-- R1, R2, R5, R6, R14, R61, R66: at most 32 entries, no two with one key, each whole; at most one pending restore for a point, and
only for line-owned points; outside ACTIVE and SILENT the table and the pulse list are empty. -/
abbrev State.TableSafe (s : State) : Prop :=
  s.cues.held ≤ Config.cueCapacity ∧ s.cues.keys.Nodup ∧ (∀ e ∈ s.cues.provisional.toList ++ s.cues.armed, e.Whole) ∧
    (s.points.pulses.map (fun r => r.point)).Nodup ∧
    (∀ r ∈ s.points.pulses, s.points.owner r.point = .line) ∧
    (s.station.state.keepsCues = false → s.cues.armed = [] ∧ s.cues.provisional = none ∧ s.points.pulses = [])

/-- The line time that the table order is measured at: the present one, and while the readers of an advance have not finished with it,
the one before the advance (R10, R12, R52; log entry 33). -/
def State.tableBase (s : State) : Time :=
  match s.work.advance with
  | some adv => adv.base
  | none => s.clock.lineTime

/-- R10: the armed entries stand in table order; an advance in hand is the one that led to the present line time, and less than 2^31. -/
abbrev State.OrderSafe (s : State) : Prop :=
  s.cues.armed.Pairwise (fun x y => aheadOf s.tableBase x y = true) ∧
    ∀ adv ∈ s.work.advance, adv.target = s.clock.lineTime ∧ adv.size < 2 ^ 31

/-- R67: every armed fire time lies less than 2^31 ticks ahead of the line time that the order is measured at. -/
abbrev State.FireTimesInSpan (s : State) : Prop := ∀ e ∈ s.cues.armed, distance e.fireTime s.tableBase < 2 ^ 31

/-- R71: the next due time, where there is one, is a multiple of the beacon period, and the first after the line time. -/
def Clock.nextDueIsNear (c : Clock) : Bool :=
  match c.nextDue with
  | some d => decide (d.toNat % c.beaconPeriod = 0) && decide (1 ≤ distance d c.lineTime) &&
      decide (distance d c.lineTime ≤ c.beaconPeriod)
  | none => true

/-- R68, R69, R71, R73, R77, R79, R80, R87: the slew remainder and phase in their ranges, and 0 in UNSYNCED and REFERENCE; the counts
below their limits; the reference ID present exactly in FOLLOWING and REFERENCE, and the station's own ID in REFERENCE; the beacon
period one of the four, and the next due time its first multiple after the line time; UNSYNCED while a full reset lasts. -/
abbrev State.ClockSafe (s : State) : Prop :=
  s.clock.slewRemainder.natAbs ≤ Config.slewLimit ∧ s.clock.slewPhase < Config.slewSpan ∧
    (s.clock.slewRemainder = 0 → s.clock.slewPhase = 0) ∧
    (s.clock.state = .unsynced ∨ s.clock.state = .reference → s.clock.slewRemainder = 0) ∧
    s.clock.missCount < Config.missLimit ∧ s.clock.holdoverCount < Config.holdoverLimit ∧
    s.clock.windowCount ≤ Config.firstListenLimit ∧
    (s.clock.state = .unsynced ∨ s.clock.state = .holdover → s.clock.refId = none) ∧
    (s.clock.state = .following → s.clock.refId.isSome = true) ∧
    (s.clock.state = .reference → s.clock.refId = some s.station.id) ∧
    s.station.setup.periodCode.toNat ≤ 3 ∧ s.clock.beaconPeriod ∈ [256, 512, 1024, 2048] ∧
    s.clock.nextDueIsNear = true ∧
    (s.inReset = true → s.clock.state = .unsynced)

/-- R142, R162, R163: the counts of captures and peer records in their ranges; a record for each of the 62 IDs. -/
abbrev State.CountsSafe (s : State) : Prop :=
  s.peers.length = 62 ∧
    (∀ r ∈ s.peers, r.framesHeard ≤ Config.framesHeardMax ∧ r.silenceCount ≤ Config.silenceLimit) ∧
    (∀ r ∈ s.peers, r.presence = .present → r.silenceCount < Config.silenceLimit) ∧
    ∀ i : Fin 4, match (fourGet s.inputs i).capture with
      | .held _ _ extra _ => extra ≤ Config.extraMax
      | .expired _ _ extra => extra ≤ Config.extraMax
      | .empty => True

/-- The station drives a wire, or is about to: it pulls PACE or DATA low, paces, times a half-period, sends a frame, or has offered
one (R90, R91, R97). -/
def State.usesLine (s : State) : Bool :=
  s.line.drivesPace || s.line.drivesData || s.line.driving || s.line.halfPeriod != .none || s.line.role == .sender ||
    s.send.offered != .none

/-- R108, R122, R132, R133, R136, R159, R166: `t` is `s` after the fault `cause`, with this wire, has aborted its frame: the line in
RECOVER with its wires free; what the owner kept of the frame discarded; the head or the beacon in flight BROKEN; LINE_ERROR as the line
stood; and SILENT entered where a duplicate ID or a LEAVE waited. -/
def State.abortedTo (s t : State) (cause : LineErrorCause) (wire : Option Wire) : Prop :=
  t.line.state = .recover ∧ t.line.role = .none ∧ t.line.position = none ∧
    t.line.drivesPace = false ∧ t.line.drivesData = false ∧ t.decoder = Decoder.reset ∧ t.work = Work.none ∧
    t.points = s.points ∧ t.inputs = s.inputs ∧ t.peers = s.peers ∧ t.pins = s.pins ∧
    t.port.reservation = (if s.decoder.owner = .hostPort then none else s.port.reservation) ∧
    t.cues = (match s.decoder.owner, s.cues.offer with
      | .cueTable, some r =>
        { armed := if r.effect = .marked then s.cues.armed.map (fun e => { e with withdrawPending := false })
            else s.cues.armed,
          provisional := if r.effect = .newEntry then none else s.cues.provisional,
          offer := none }
      | _, _ => s.cues) ∧
    (s.port.used + 2 ≤ 16 → s.station.enables .lineError = true →
      .lineError cause wire s.line.state s.line.position s.line.role s.decoder.kind s.decoder.sender s.clock.lineTime ∈
        t.port.notices) ∧
    (s.station.dupPending = true ∨ s.station.leavePending = true →
      t.station = { s.station with state := .silent, dupPending := false, leavePending := false } ∧ t.send.queue = [] ∧
        t.send.offered = .none ∧ t.send.slot ≠ .queued ∧ t.usesLine = false ∧
        (s.port.used + 3 ≤ 16 →
          .station (some s.station.state) .silent (if s.station.dupPending then .duplicateId else .leave)
            (if s.station.dupPending then s.decoder.kind else none) s.station.id s.clock.lineTime ∈ t.port.notices)) ∧
    (s.station.dupPending = false → s.station.leavePending = false →
      t.station = s.station ∧
      t.clock = (if s.decoder.owner = .lineClock then { s.clock with beacon := none } else s.clock) ∧
      (s.line.role ≠ .sender → t.send = s.send) ∧
      (s.line.role = .sender → s.line.arbitration = .contending ∨ s.line.arbitration = .won →
        (s.send.slot = .inFlight → t.send = { s.send with slot := .empty }) ∧
        ∀ (e : SendEntry) (rest : List SendEntry), s.send.slot ≠ .inFlight → s.send.queue = e :: rest →
          let broken := { e with attemptsLeft := e.attemptsLeft - 1, inFlight := false, brokenSeen := true }
          let ends (o : SendOutcome) : Prop :=
            t.send = { s.send with queue := rest, issued := s.send.issued ++ issuedByEnding [broken] } ∧
              (s.port.used + 2 ≤ 16 → s.doneWith o broken ∈ t.port.notices)
          (e.attemptsLeft ≤ 1 → ends .broken) ∧
          (2 ≤ e.attemptsLeft → e.retire = true → ends .purged) ∧
          (2 ≤ e.attemptsLeft → e.retire = false → t.send = { s.send with queue := broken :: rest })))

/-- R90, R153: the line is used only in ACTIVE; a frame in SENDING is this station's; in SETUP and HALTED the line interface is OFF,
with nothing of a frame left; while a full reset lasts the station is in none of the states after JOIN (log entry 4). -/
abbrev State.LineSafe (s : State) : Prop :=
  (s.usesLine = true → s.station.state = .active) ∧ (s.line.state = .sending → s.line.role = .sender) ∧
    (s.station.state = .setup ∨ s.station.state = .halted →
      s.line.state = .off ∧ s.line.heldEnd = none ∧ s.work.arbLost = false ∧ s.work.evaluate = false) ∧
    (s.inReset = true → s.station.state = .halted)

end Sys2Proof.Machine
end

