-- ==== Sys2Proof/WellFormed.lean ====
section
/-! DEFINITION. Which commands and events are well formed: argument bytes that are exactly what the host port takes (R167, R168), an
unknown command byte that names no command (R168), a transaction cut short before any command's bytes could be complete
(R169), a peer that has a record (R162). -/

namespace Sys2Proof

open Sys2Proof.Machine in
/-- The argument bytes are exactly those with which the command is taken, at its last argument byte or at a length field. -/
def Instr.exactShape (shape : List Byte → Shape) (args : List Byte) : Bool :=
  match shape args with
  | .taken xs => xs == args
  | .refused used => used == args.length
  | .collecting _ => false

/-- The longest run of bits that can be clocked in before any command is taken: SETUP with 8 groups, less its last bit. -/
def cutShortMax : Nat := 8 * (1 + 23 + 8) - 1

/-- Well-formedness of a command or event. -/
def Instr.wellFormed : Instr → Bool
  | .setup args => exactShape Machine.setupShape args
  | .join => true
  | .leave => true
  | .restart _ => true
  | .send args => exactShape Machine.sendShape args
  | .purge => true
  | .nextNotice => true
  | .status => true
  | .time => true
  | .setPoints mask levels => exactShape (Machine.exactly 2) mask && exactShape (Machine.exactly 2) levels
  | .getPoints => true
  | .listCue args => exactShape (Machine.exactly 1) args
  | .dropCue issuer serial => exactShape (Machine.exactly 1) issuer && exactShape (Machine.exactly 1) serial
  | .loadTrigger args => exactShape Machine.loadTriggerShape args
  | .readCapture args => exactShape (Machine.exactly 1) args
  | .peer args => exactShape (Machine.exactly 1) args
  | .unknownCommand code => !Machine.knownCode code
  | .transactionBegin => true
  | .transactionCutShort bits => decide (bits ≤ cutShortMax)
  | .fullReset => true
  | .resetRelease _ => true
  | .tick => true
  | .slewedTick => true
  | .firing => true
  | .restore => true
  | .ageOut => true
  | .holdLimit _ => true
  | .gapEnd _ => true
  | .beaconDueTime => true
  | .referenceLost => true
  | .holdoverLimit => true
  | .firstListenExpiry => true
  | .peerSilence id => decide (1 ≤ id.toNat) && decide (id.toNat ≤ 62)
  | .triggerEdge _ _ => true
  | .offerHead => true
  | .offerBeacon => true
  | .startCondition _ => true
  | .arbitrationLost => true
  | .evaluationPoint => true
  | .answerReady => true
  | .endCondition => true
  | .lineIdle => true
  | .paceFallInIdle => true
  | .stuckLow _ => true
  | .stall => true
  | .framing => true
  | .recoverEnd => true
  | .bitSample _ => true
  | .paceFall => true
  | .halfPeriodEnd => true
  | .transactionEnd => true
  | .idleCountReset _ => true

end Sys2Proof
end

