-- ==== Sys2Proof/Certificates/Slice0/Obligations.lean ====
section
/-! DEFINITION. The statements about the station for the provers. `s.Ready` says that the instant is finished and the port takes a
command (log entries 2 and 7); `answerCommand name r s` is `s` with the response `r` fixed in the port record (R167). -/

open Sys2Proof Sys2Proof.Machine

/-! ### The queue of commands and the instant -/

/-- The front command is executed on the state with the queue's rest; an empty queue idles (log entry 1). -/
def Obligations.StepTakesFrontOfQueue : Prop :=
  (∀ (s : State) (c : Instr) (rest : List Instr), s.pending = c :: rest → step s = exec c (s.withPending rest)) ∧
    ∀ s : State, s.pending = [] → step s = .next s

/-- Every command and event, in every state, leads to a next state, and the queue of waiting commands is as it was. That there is such
a queue is the model's choice (log entry 1), and so is that an event outside the circumstances its rule names answers a next state
(log entry 8). -/
def Obligations.EveryCommandAnswersAndKeepsQueue : Prop :=
  ∀ (c : Instr) (s : State), ∃ t, exec c s = .next t ∧ t.pending = s.pending

/-- A command or an event of the line, the pins or the crystal meets the instant before it finished: the work of one advance is
complete, and no offer is called for any more, before the next event acts or a view is taken (R50, R52, R70, R131; log entry 2). After
an advance no armed fire time and no pending restore is left that it reached; the captures it reached are EXPIRED, the gap ends none, and
the issued entries it went beyond are gone, no others (R51, R52, R130, R143, R149). What finishes the instant is what the rows of its
parts do: taking one of them first leads to the same state. A due time in hand is taken whole (R72), and what a sample left is done as
its own rows do it (R98, R120). -/
def Obligations.EventsMeetAFinishedInstant : Prop :=
  (∀ s : State, (settle s).settled = true) ∧
  (∀ (c : Instr) (s : State), startsInstant c = true → exec c s = exec c (settle s)) ∧
  (∀ (s : State) (base : Time) (size : Nat), s.work.advance = some ⟨base, size⟩ → s.TableSafe → s.OrderSafe →
    let t := settle s
    (∀ e ∈ t.cues.armed, size < distance e.fireTime base) ∧ (∀ r ∈ t.points.pulses, size < distance r.time base) ∧
      (∀ i : Fin 4, fourGet t.inputs i = { fourGet s.inputs i with
        capture := match (fourGet s.inputs i).capture with
          | .held time edge extra holdEnd =>
            if distance holdEnd base ≤ size then .expired time edge extra else .held time edge extra holdEnd
          | c => c
        gapEnd := (fourGet s.inputs i).gapEnd.filter (fun x => decide (size < distance x base)) }) ∧
      (s.send.Safe → ∀ x ∈ s.send.issued, x ∈ t.send.issued ↔ size ≤ distance x.lastFire base)) ∧
  (∀ (s t : State) (c : Instr) (adv : Advance), s.work = { Work.none with advance := some adv } → s.TableSafe → s.OrderSafe →
    c = .firing ∨ c = .restore ∨ c = .ageOut ∨ (∃ i, c = .holdLimit i) ∨ (∃ i, c = .gapEnd i) →
    exec c s = .next t → settle t = settle s) ∧
  (∀ s t : State, s.work = { Work.none with due := true } → exec .beaconDueTime s = .next t → settle t = settle s) ∧
  (∀ (s t : State) (c : Instr), c = .arbitrationLost ∨ c = .evaluationPoint → exec c s = .next t → settle t = settle s) ∧
  ∀ s u t : State, exec .evaluationPoint s = .next u → exec .beaconDueTime u = .next t →
    (settle s).clock = t.clock ∧ (settle s).station = t.station ∧ (settle s).peers = t.peers ∧ (settle s).send.slot = t.send.slot ∧
      (settle s).decoder = u.decoder ∧ (settle s).line = u.line ∧
      let early := settle (u.withWork { u.work with due := false })
      (settle s).cues = early.cues ∧ (settle s).points = early.points ∧ (settle s).inputs = early.inputs

/-! ### Invariants of every step -/

/-- At most 16 notice records are used, the reserved one included, and the dropped count stays at 255 (R171, R172). -/
def Obligations.NoticeRoomIsKept : Prop :=
  ∀ s t : State, s.port.Safe → step s = .next t → t.port.Safe

/-- The send queue, the issued list and their serials (R124, R126, R128). -/
def Obligations.SendUnitIsKept : Prop :=
  ∀ s t : State, s.send.Safe → step s = .next t → t.send.Safe

/-- The wires are driven, and the line used, only in ACTIVE (R90). -/
def Obligations.LineIsUsedOnlyInActive : Prop :=
  ∀ s t : State, s.LineSafe → step s = .next t → t.LineSafe

/-- The cue table and the pulse list (R1, R2, R5, R6, R14, R61, R66). The armed entries stay in table order, whatever the step does to
line time, while every armed fire time lies within the span that R67 gives stored times (R10 to R12). That the order is measured
at the base of an advance until its readers have finished with it is the model's reading (log entry 33). -/
def Obligations.CueTableIsKept : Prop :=
  (∀ s t : State, s.LineSafe → s.TableSafe → step s = .next t → t.TableSafe) ∧
    ∀ s t : State, s.LineSafe → s.TableSafe → s.OrderSafe → s.FireTimesInSpan → step s = .next t → t.OrderSafe

/-- The clock record: slew, counts, reference ID, beacon period and next due time (R68, R69, R71, R77, R79, R80, R81, R87). -/
def Obligations.ClockRecordIsKept : Prop :=
  ∀ s t : State, s.LineSafe → s.ClockSafe → step s = .next t → t.ClockSafe

/-- The counts of the peer table and of the captures (R142, R162, R163). -/
def Obligations.CountsAreKept : Prop :=
  ∀ s t : State, s.CountsSafe → step s = .next t → t.CountsSafe

/-- The full reset in force meets every invariant. -/
def Obligations.ResetMeetsInvariants : Prop :=
  State.reset.port.Safe ∧ State.reset.send.Safe ∧ State.reset.LineSafe ∧ State.reset.TableSafe ∧ State.reset.OrderSafe ∧
    State.reset.FireTimesInSpan ∧ State.reset.ClockSafe ∧ State.reset.CountsSafe

/-! ### Formats -/

/-- A body is read as a CUE exactly when it is the bytes of a cue with 1 to 4 actions and no width, period or count of 0 that a
frame can carry; its length is the sum of its fields, and 24 bytes never spell one; a short body shows serial 0 or fire time 0
(R26). -/
def Obligations.CueBodyIsWellFormedExactly : Prop :=
  (∀ (bytes : List Byte) (b : CueBody), parseCue bytes = some b ↔ b.ok = true ∧ encodeCue b = bytes) ∧
    (∀ b : CueBody, (encodeCue b).length =
      6 + (if b.rep.isSome then 3 else 0) + 2 * b.actions.length +
        2 * (b.actions.filter (fun a => match a.op with | .pulseHigh _ => true | .pulseLow _ => true | _ => false)).length) ∧
    (∀ bytes : List Byte, bytes.length = 24 → parseCue bytes = none) ∧
    bodySerial [] = 0 ∧ ∀ bytes : List Byte, bytes.length < 5 → bodyFireTime bytes = 0

/-- Argument bytes carry a SETUP record exactly when the record is within its ranges and the bytes are its own (R155, R156). -/
def Obligations.SetupRecordIsItsBytesExactly : Prop :=
  ∀ (args : List Byte) (r : SetupRecord), parseSetup args = some r ↔ r.ok = true ∧ r.gapsOk = true ∧ args = r.bytes

/-- Every frame a sender builds is received as it was sent: after its last check bit is sampled, the decoder holds its kind, owner,
sender, scope and length, the buffer its body, the received check equals the accumulator, and the evaluation point has come
(Formats, "The frame on the line"; R111 to R113, R181). -/
def Obligations.FrameIsReceivedAsSent : Prop :=
  ∀ (s : State) (kind : BitVec 3) (sender : Byte) (scope : Scope) (body : List Byte),
    s.hearing → sender.toNat < 64 → body.length < 32 →
      let t := s.afterAll ((frameBits kind sender scope body).map (fun b => .bitSample (bitLevel b)))
      t.decoder.kind = some kind ∧ t.decoder.owner = ownerOfKind kind ∧ t.decoder.sender = some sender ∧
        t.decoder.scope = scope ∧ t.decoder.length = some body.length ∧ t.rxBody = body ∧ t.rxCheck = t.decoder.checkAcc ∧
        t.decoder.checkAcc = checkOf (frameDataBits kind sender scope body) ∧
        t.line.position = some (39 + 8 * body.length) ∧ t.line.frameLength = some (42 + 8 * body.length) ∧
        t.line.state = .receiving ∧ t.work = { Work.none with evaluate := true }

/-! ### Refusals -/

/-- Every command with its arguments complete is answered with a status. Refused with any code other than OK, it changes nothing
but the port's transaction record and queues no notice, and it carries results only where its own rule gives them. A shape
refusal is answered FORM in every station state; any other command but STATUS and RESTART is refused WRONG_STATE in HALTED
(R170). -/
def Obligations.RefusedCommandChangesNothing : Prop :=
  ∀ (c : Instr) (s : State), isHostCommand c = true → c.wellFormed = true → s.Ready →
    ∃ t r, exec c s = .next t ∧ t.port.response = some r ∧
      (r.status ≠ .ok →
        t = s.withPort { s.port with
          phase := if s.pins.ncs = .low then .results else .waiting, command := t.port.command, argsExpected := 0,
          args := [], response := some r, shifted := 0 }) ∧
      (r.status ≠ .ok → r.results ≠ [] →
        ((∃ i, c = .listCue i) ∧ r.status = .notFound) ∨
          ((c = .nextNotice ∨ ∃ i, c = .readCapture i) ∧ r.status = .empty)) ∧
      (shapeRefused c → r = ⟨.form, []⟩) ∧
      (s.station.state = .halted → c ≠ .status → (∀ x, c ≠ .restart x) → ¬shapeRefused c → r = ⟨.wrongState, []⟩)

/-- A length field beyond its range, or a SEND kind of 0 or above 3, is answered FORM in every station state and changes nothing else,
whatever bytes follow: they are RESULTS bytes, ignored, and the first of them shifts out the status, after which the port is DONE (R167,
R168). That bytes follow in the row itself, and that a row with NCS high is its whole transaction, are the model's choices (log entries
31 and 7). -/
def Obligations.ShapeRefusalsAnswerForm : Prop :=
  ∀ s : State, s.Ready →
    let form (name : CommandName) (rest : List Byte) : Host.Outcome State Fault Refusal :=
      .next (s.withPort { s.port with
        phase := if s.pins.ncs = .high then .waiting else if rest = [] then .results else .done,
        command := some name, argsExpected := 0, args := [], response := some ⟨.form, []⟩, shifted := min 1 rest.length })
    (∀ (handle kind : Byte) (rest : List Byte), kind = 0 ∨ 3 < kind.toNat →
      exec (.send (handle :: kind :: rest)) s = form .send rest) ∧
    (∀ (handle mode number len : Byte) (rest : List Byte), 25 ≤ len.toNat →
      exec (.send (handle :: 3 :: mode :: number :: len :: rest)) s = form .send rest) ∧
    (∀ (handle mode number f3 f2 f1 f0 control : Byte) (rest : List Byte), 4 < (control.extractLsb' 0 3).toNat →
      exec (.send (handle :: 2 :: mode :: number :: f3 :: f2 :: f1 :: f0 :: control :: rest)) s = form .send rest) ∧
    (∀ (input mode number l1 l0 control : Byte) (rest : List Byte), 4 < (control.extractLsb' 0 3).toNat →
      exec (.loadTrigger (input :: mode :: number :: l1 :: l0 :: control :: rest)) s = form .loadTrigger rest) ∧
    ∀ (count : Byte) (rest : List Byte), 8 < count.toNat →
      exec (.setup (count :: rest)) s = form .setup rest

/-! ### Station control -/

/-- In SETUP, a SETUP command that carries a record within its ranges replaces the record held, whatever it was, is answered OK and
changes nothing else; a record outside its ranges is refused FORM. In every other station state a SETUP command whose arguments are
complete is refused WRONG_STATE (R156). -/
def Obligations.SetupReplacesTheRecord : Prop :=
  (∀ (s : State) (r : SetupRecord), s.Ready → s.station.state = .setup → r.ok = true → r.gapsOk = true →
    exec (.setup r.bytes) s =
      .next (answerCommand (some .setup) ⟨.ok, []⟩ (s.withStation { s.station with setup := r }))) ∧
  ∀ (s : State) (args : List Byte), s.Ready → setupShape args = .taken args →
    (s.station.state ≠ .setup → exec (.setup args) s = .next (answerCommand (some .setup) ⟨.wrongState, []⟩ s)) ∧
    (s.station.state = .setup → (∀ r : SetupRecord, r.ok = true → r.gapsOk = true → args ≠ r.bytes) →
      exec (.setup args) s = .next (answerCommand (some .setup) ⟨.form, []⟩ s))

/-- JOIN in SETUP: the owners, levels, inputs, beacon schedule, first-listen window and line interface take their values from the
frozen record; the station is in LISTEN; the other blocks stand (R47, R71, R81, R103, R140, R146, R157). In every other station
state JOIN is refused WRONG_STATE. That several TRIGGER CLEARED notices come TI0 to TI3 is the model's choice (log entry 37). -/
def Obligations.JoinTakesTheFrozenRecord : Prop :=
  (∀ s : State, s.Ready → s.station.state ≠ .setup →
    exec .join s = .next (answerCommand (some .join) ⟨.wrongState, []⟩ s)) ∧
  ∀ s : State, s.Ready → s.station.state = .setup → s.station.setup.ok = true →
    ∃ t, exec .join s = .next t ∧ t.port.response = some ⟨.ok, [2]⟩ ∧
      t.station = { s.station with state := .listen } ∧
      (∀ i : Fin 16, t.points.owner i = if s.station.setup.lineMask.getLsbD i.val then .line else .host) ∧
      (∀ i : Fin 16, t.points.level i =
        if s.station.setup.lineMask.getLsbD i.val then bitLevel (s.station.setup.initialLevels.getLsbD i.val)
        else s.points.level i) ∧
      t.points.pulses = s.points.pulses ∧
      (∀ i : Fin 4, fourGet t.inputs i =
        { fourGet s.inputs i with
          selection := fourGet s.station.setup.selections i, gap := fourGet s.station.setup.gaps i,
          level := fourGet s.pins.ti i,
          template := (fourGet s.inputs i).template.filter (fun x => decide (s.station.setup.minLead ≤ x.lead.toNat)) }) ∧
      (∃ due, t.clock = { s.clock with
          beaconPeriod := Config.beaconPeriod s.station.setup.periodCode.toNat, nextDue := some due, window := .running,
          windowCount := 0 } ∧
        due.toNat % t.clock.beaconPeriod = 0 ∧ 1 ≤ distance due s.clock.lineTime ∧
        distance due s.clock.lineTime ≤ t.clock.beaconPeriod) ∧
      t.line = { s.line with state := .waitIdle, idleCount := 0 } ∧
      t.send = s.send ∧ t.cues = s.cues ∧ t.peers = s.peers ∧ t.decoder = s.decoder ∧ t.pins = s.pins ∧
      (s.port.used + 5 ≤ Config.noticeCapacity → s.station.setup.enableMask.getLsbD 10 = true →
        t.port.notices = s.port.notices ++
          (.station (some .setup) .listen .joined none s.station.id s.clock.lineTime ::
            ([0, 1, 2, 3] : List (Fin 4)).filterMap (fun i => match (fourGet s.inputs i).template with
              | some x => if x.lead.toNat < s.station.setup.minLead then some (.trigger i .cleared 0 none 0 0 s.clock.lineTime)
                else none
              | none => none)))

/-- LEAVE in LISTEN or ACTIVE. With no own frame on the line the station is SILENT at once: every entry of the queue ends with SEND_DONE
SILENCED, a queued beacon is removed, a REFERENCE clock holds over with CLOCK LEFT_ACTIVE, the wires are released, and the table,
points, inputs and peers stand. STATION comes first, the SEND_DONE records and CLOCK after it in either order. In an own frame, or
with a LEAVE pending, it is deferred. In the other station states it is refused WRONG_STATE (R87, R90, R137, R138, R159, R160). -/
def Obligations.LeaveSilencesOrWaits : Prop :=
  (∀ s : State, s.Ready → s.station.state ≠ .listen → s.station.state ≠ .active →
    exec .leave s = .next (answerCommand (some .leave) ⟨.wrongState, []⟩ s)) ∧
  ∀ s : State, s.Ready → s.station.state = .listen ∨ s.station.state = .active →
    (s.station.leavePending = false → s.line.role ≠ .sender →
      ∃ t, exec .leave s = .next t ∧ t.port.response = some ⟨.ok, [0]⟩ ∧
        t.station = { s.station with state := .silent, leavePending := false, dupPending := false } ∧
        t.send = { s.send with
          queue := [], issued := s.send.issued ++ issuedByEnding s.send.queue,
          slot := (if s.send.slot = .queued then .empty else s.send.slot), offered := .none } ∧
        t.clock = (if s.clock.state = .reference then
          { s.clock with state := .holdover, refId := none, holdoverCount := 0, missCount := 0 } else s.clock) ∧
        t.line = { s.line with
          drivesPace := false, drivesData := false, driving := false, halfPeriod := .none,
          stretch := (if s.line.stretch = .holding then .released else s.line.stretch) } ∧
        t.cues = s.cues ∧ t.points = s.points ∧ t.inputs = s.inputs ∧ t.peers = s.peers ∧ t.decoder = s.decoder ∧
        t.pins = s.pins ∧
        (s.port.used < Config.noticeCapacity → ∃ rest, t.port.notices = s.port.notices ++
          (.station (some s.station.state) .silent .leave none s.station.id s.clock.lineTime :: rest)) ∧
        (s.port.used + s.send.queue.length + 2 ≤ Config.noticeCapacity →
          let done := s.send.queue.map (s.doneWith .silenced)
          let left := if s.clock.state = .reference ∧ s.station.enables .clock = true then
            [Notice.clock .leftActive .reference .holdover none 0 false .holdover s.clock.lineTime] else []
          let first := s.port.notices ++ [.station (some s.station.state) .silent .leave none s.station.id s.clock.lineTime]
          t.port.notices = first ++ done ++ left ∨ t.port.notices = first ++ left ++ done)) ∧
    (s.station.leavePending = true ∨ s.line.role = .sender →
      exec .leave s = .next (answerCommand (some .leave) ⟨.ok, [1]⟩
        (s.withStation { s.station with leavePending := true })))

/-- RESTART in every station state: every block takes its reset values, but the points keep owners and levels with the pending
restores applied; the straps are sampled; the STATION notice of an entry to SETUP is the only record (R45, R64, R68, R103, R110,
R125, R140, R151, R152, R154, R162, R179). -/
def Obligations.RestartResetsEveryBlock : Prop :=
  ∀ (s : State) (straps : Straps), s.Ready → (s.points.pulses.map (fun r => r.point)).Nodup →
    ∃ t, exec (.restart straps) s = .next t ∧
      t.cues = CueTable.reset ∧ t.clock = Clock.reset ∧ t.line = Line.reset ∧ t.decoder = Decoder.reset ∧
      t.send = SendUnit.reset ∧ t.inputs = resetInputs ∧ t.peers = resetPeers ∧ t.work = Work.none ∧ t.pins = s.pins ∧
      t.points.owners = s.points.owners ∧ t.points.pulses = [] ∧
      (∀ i : Fin 16, t.points.level i = match s.points.pulses.find? (fun r => r.point == i) with
        | some r => r.level
        | none => s.points.level i) ∧
      t.station = { state := if straps.id = 0 ∨ straps.id = 63 then .halted else .setup, id := straps.id.setWidth 8,
                    eligible := decide (straps.tke = .high), rate := if straps.rate = .high then .kbit500 else .kbit125,
                    setup := SetupRecord.default, leavePending := false, dupPending := false } ∧
      t.port.response = some ⟨.ok, [if straps.id = 0 ∨ straps.id = 63 then 0 else 1, straps.id.setWidth 8,
        if straps.tke = .high then 1 else 0, if straps.rate = .high then 1 else 0]⟩ ∧
      t.port.reservation = none ∧ t.port.dropped = 0 ∧
      (straps.id = 0 ∨ straps.id = 63 → t.port.notices = [] ∧ t.port.seen = 0) ∧
      (straps.id ≠ 0 → straps.id ≠ 63 →
        t.port.notices = [.station (some s.station.state) .setup .restart none (straps.id.setWidth 8) 0] ∧
          t.port.seen = 0x0800)

/-- FULL_RESET in every state, in the middle of whatever is going on, puts every block at its full-reset value; RESET_RELEASE ends
it, with the straps sampled and the STATION notice of an entry to SETUP (R45, R151 to R153). The station state and straps held while
the reset lasts are the model's choice (log entry 4). -/
def Obligations.FullResetAndRelease : Prop :=
  (∀ s : State, exec .fullReset s =
    .next { State.reset with pins := { s.pins with nrst := .low }, order := s.order, pending := s.pending }) ∧
  ∀ (s : State) (straps : Straps), s.settled = true → s.pins.nrst = .low →
    ∃ t, exec (.resetRelease straps) s = .next t ∧ t.pins = { s.pins with nrst := .high } ∧
      t.station = { state := if straps.id = 0 ∨ straps.id = 63 then .halted else .setup, id := straps.id.setWidth 8,
                    eligible := decide (straps.tke = .high), rate := if straps.rate = .high then .kbit500 else .kbit125,
                    setup := SetupRecord.default, leavePending := false, dupPending := false } ∧
      t.clock = s.clock ∧ t.cues = s.cues ∧ t.points = s.points ∧ t.line = s.line ∧ t.decoder = s.decoder ∧
      t.send = s.send ∧ t.inputs = s.inputs ∧ t.peers = s.peers ∧
      (straps.id = 0 ∨ straps.id = 63 → t.port = s.port) ∧
      (straps.id ≠ 0 → straps.id ≠ 63 → s.port = Port.reset →
        t.port.notices = [.station none .setup .reset none (straps.id.setWidth 8) s.clock.lineTime] ∧ t.port.seen = 0x0800)

/-! ### The send unit -/

/-- A SEND of a CUE whose tests pass joins the tail of the queue with the next free serial and its first attempts, and the counter
moves past the serial; nothing else changes. The tests that fail decide the refusal, in their order: the station state, an unsynced
clock, the scope or body, the room of the queue, the room for serials (R124, R126, R127, R128). -/
def Obligations.SendOfACueJoinsTheQueue : Prop :=
  (∀ (s : State) (handle mode number : Byte) (fields : List Byte) (scope : Scope) (b : CueBody),
    s.Ready → s.station.state = .listen ∨ s.station.state = .active → s.clock.state ≠ .unsynced →
      parseScope mode number = some scope → parseCue (0 :: fields) = some b → s.send.queue.length < 8 →
      s.send.issued.length + s.send.queuedCues < 32 →
      exec (.send (handle :: 2 :: mode :: number :: fields)) s =
        .next (answerCommand (some .send) ⟨.ok, [s.send.nextSerial, BitVec.ofNat 8 (s.send.queue.length + 1)]⟩
          (s.withSend { s.send with
            counter := s.send.nextSerial + 1,
            queue := s.send.queue ++
              [{ handle := handle, source := .host, kind := .cue, scope := scope, body := s.send.nextSerial :: fields,
                 serial := some s.send.nextSerial, attemptsLeft := s.station.setup.sendAttempts, losses := 0, brokenSeen := false,
                 retire := false, inFlight := false }] }))) ∧
  ∀ (s : State) (handle mode number : Byte) (fields : List Byte), s.Ready →
    let args := handle :: 2 :: mode :: number :: fields
    let refused (st : Status) : Prop := exec (.send args) s = .next (answerCommand (some .send) ⟨st, []⟩ s)
    sendShape args = .taken args →
      (s.station.state ≠ .listen → s.station.state ≠ .active → refused .wrongState) ∧
      (s.station.state = .listen ∨ s.station.state = .active →
        (s.clock.state = .unsynced → refused .wrongState) ∧
        (s.clock.state ≠ .unsynced → parseScope mode number = none ∨ parseCue (0 :: fields) = none → refused .form) ∧
        (s.clock.state ≠ .unsynced → parseScope mode number ≠ none → parseCue (0 :: fields) ≠ none →
          8 ≤ s.send.queue.length ∨ 32 ≤ s.send.issued.length + s.send.queuedCues → refused .full))

/-- A SEND of a WITHDRAW of an issued serial joins with the scope recorded for the serial, whatever scope the host names; a SEND of
a MESSAGE joins with its payload. The tests that fail decide the refusal, in their order: the station state; for a MESSAGE the scope
or the payload; the room of the queue; for a WITHDRAW the serial (R126, R127). -/
def Obligations.SendOfAWithdrawOrMessageJoins : Prop :=
  (∀ (s : State) (handle mode number : Byte) (serial len : Byte) (payload : List Byte), s.Ready →
    len.toNat = payload.length → payload.length ≤ 24 →
    let withdraw (st : Status) : Prop :=
      exec (.send [handle, 1, mode, number, serial]) s = .next (answerCommand (some .send) ⟨st, []⟩ s)
    let message (st : Status) : Prop :=
      exec (.send (handle :: 3 :: mode :: number :: len :: payload)) s = .next (answerCommand (some .send) ⟨st, []⟩ s)
    (s.station.state ≠ .listen → s.station.state ≠ .active → withdraw .wrongState ∧ message .wrongState) ∧
    (s.station.state = .listen ∨ s.station.state = .active →
      (8 ≤ s.send.queue.length → withdraw .full) ∧
      (s.send.queue.length < 8 → (∀ i ∈ s.send.issued, i.serial ≠ serial) → withdraw .notFound) ∧
      (parseScope mode number = none ∨ payload = [] → message .form) ∧
      (parseScope mode number ≠ none → payload ≠ [] → 8 ≤ s.send.queue.length → message .full))) ∧
  ∀ (s : State) (handle mode number : Byte), s.Ready → s.station.state = .listen ∨ s.station.state = .active →
    s.send.queue.length < 8 →
    (∀ (serial : Byte) (i : Issued), s.send.issued.find? (fun x => x.serial == serial) = some i →
      exec (.send [handle, 1, mode, number, serial]) s =
        .next (answerCommand (some .send) ⟨.ok, [serial, BitVec.ofNat 8 (s.send.queue.length + 1)]⟩
          (s.withSend { s.send with queue := s.send.queue ++
            [{ handle := handle, source := .host, kind := .withdraw, scope := i.scope, body := [serial], serial := some serial,
               attemptsLeft := s.station.setup.sendAttempts, losses := 0, brokenSeen := false, retire := false,
               inFlight := false }] }))) ∧
    ∀ (scope : Scope) (payload : List Byte), parseScope mode number = some scope → 1 ≤ payload.length → payload.length ≤ 24 →
      exec (.send (handle :: 3 :: mode :: number :: BitVec.ofNat 8 payload.length :: payload)) s =
        .next (answerCommand (some .send) ⟨.ok, [0, BitVec.ofNat 8 (s.send.queue.length + 1)]⟩
          (s.withSend { s.send with queue := s.send.queue ++
            [{ handle := handle, source := .host, kind := .message, scope := scope, body := payload, serial := none,
               attemptsLeft := s.station.setup.sendAttempts, losses := 0, brokenSeen := false, retire := false,
               inFlight := false }] }))

/-- The serial a CUE takes is held by no entry of the queue and by no issued entry, and every value from the counter up to it is
held: it is the first free one, and one is always found (R128). -/
def Obligations.SerialTakenIsTheFirstFree : Prop :=
  ∀ u : SendUnit, u.Safe →
    u.nextSerial ∉ u.usedSerials ∧ ∀ n : Nat, n < (u.nextSerial - u.counter).toNat → u.counter + BitVec.ofNat 8 n ∈ u.usedSerials

/-- PURGE ends every entry but an in-flight head, which it marks, each with SEND_DONE PURGED in queue order; the answer tells how many
ended and whether one was marked; an offered head is offered no more; the serial counter, the beacon slot and the other blocks stand
(R133, R135, R138). That the serials of ended CUEs which were BROKEN are issued is the model's reading (log entry 22). -/
def Obligations.PurgeEndsQueuedEntries : Prop :=
  ∀ s : State, s.Ready → s.station.state ≠ .halted →
    ∃ t, exec .purge s = .next t ∧ t.station = s.station ∧ t.clock = s.clock ∧ t.cues = s.cues ∧ t.points = s.points ∧
      t.line = s.line ∧ t.decoder = s.decoder ∧ t.inputs = s.inputs ∧ t.peers = s.peers ∧ t.pins = s.pins ∧ t.work = s.work ∧
      let offered := if s.send.offered = .head then .none else s.send.offered
      let ends (es kept : List SendEntry) : Prop :=
        t.send = { s.send with queue := kept, issued := s.send.issued ++ issuedByEnding es, offered := offered } ∧
          t.port.response = some ⟨.ok, [BitVec.ofNat 8 es.length, BitVec.ofNat 8 kept.length]⟩ ∧
          (s.port.used + es.length ≤ 16 → t.port.notices = s.port.notices ++ es.map (s.doneWith .purged))
      match s.send.queue with
      | [] => ends [] []
      | e :: rest =>
        (e.inFlight = true → ends rest [{ e with retire := true }]) ∧ (e.inFlight = false → ends (e :: rest) [])

/-- The offers of an ACTIVE station on an idle line. A head that is no CUE, or a CUE of a synced station whose fire time lies outside
the lead window, is offered when the beacon slot is empty; a CUE that is unsynced, or inside the window, ends NOT_SYNCED or EXPIRED
and the next entry is checked. A beacon queued in the slot is offered in place of the head (R85, R131). -/
def Obligations.OffersOnAnIdleLine : Prop :=
  (∀ (s : State) (e : SendEntry) (rest : List SendEntry),
    s.work = Work.none → s.station.state = .active → s.line.state = .idle → s.send.slot = .empty → s.send.offered = .none →
      s.send.queue = e :: rest → e.inFlight = false →
      (e.kind ≠ .cue ∨ (s.clock.state ≠ .unsynced ∧
          s.station.setup.minLead ≤ distance (bodyFireTime e.body) s.clock.lineTime ∧
          distance (bodyFireTime e.body) s.clock.lineTime < 2 ^ 31) →
        exec .offerHead s = .next (s.withSend { s.send with offered := .head })) ∧
      (e.kind = .cue → s.clock.state = .unsynced →
        exec .offerHead s = exec .offerHead (endEntry .notSynced e (s.withSend { s.send with queue := rest }))) ∧
      (e.kind = .cue → s.clock.state ≠ .unsynced →
        distance (bodyFireTime e.body) s.clock.lineTime < s.station.setup.minLead ∨
          2 ^ 31 ≤ distance (bodyFireTime e.body) s.clock.lineTime →
        exec .offerHead s = exec .offerHead (endEntry .expired e (s.withSend { s.send with queue := rest })))) ∧
  ∀ s : State, s.work = Work.none → s.station.state = .active → s.line.state = .idle → s.send.slot = .queued →
    exec .offerBeacon s = .next (s.withSend { s.send with offered := .beacon })

/-! ### The host port -/

/-- What becomes of a notice: its class is marked; discarded when disabled; entered at the tail when a record is free; else dropped
and counted, up to 255. SEND_DONE, MESSAGE and STATION are always enabled, and every class is before JOIN. A committed MESSAGE
finds the record that was reserved for it (R172). -/
def Obligations.NoticeIsMarkedQueuedOrDropped : Prop :=
  (∀ (n : Notice) (s : State),
    (notify n s).port.seen = s.port.seen ||| (1#16 <<< n.cls.index) ∧
    (s.station.enables n.cls = false →
      (notify n s).port.notices = s.port.notices ∧ (notify n s).port.dropped = s.port.dropped) ∧
    (s.station.enables n.cls = true → s.port.used < 16 →
      (notify n s).port.notices = s.port.notices ++ [n] ∧ (notify n s).port.dropped = s.port.dropped) ∧
    (s.station.enables n.cls = true → 16 ≤ s.port.used →
      (notify n s).port.notices = s.port.notices ∧
        (notify n s).port.dropped = if s.port.dropped < 255 then s.port.dropped + 1 else 255) ∧
    notify n s = s.withPort { s.port with
      notices := (notify n s).port.notices, dropped := (notify n s).port.dropped, seen := (notify n s).port.seen }) ∧
  (∀ (t : Station) (c : NoticeClass), t.enables c = true ↔
    c = .sendDone ∨ c = .message ∨ c = .station ∨ t.joined = false ∨ t.setup.enableMask.getLsbD c.index = true) ∧
  ∀ (s : State) (r : Reservation), s.port.Safe → s.port.reservation = some r →
    (hostPortOutcome .commit s).port.notices = s.port.notices ++ [.message r.sender r.scope s.clock.lineTime s.rxBody] ∧
      (hostPortOutcome .commit s).port.reservation = none

/-- NEXT_NOTICE removes the oldest record and returns it with the number left, or answers EMPTY with 0; nothing else changes. NIRQ
is low exactly while a record waits (R176, R177). -/
def Obligations.NextNoticeTakesTheOldest : Prop :=
  (∀ s : State, s.Ready → s.station.state = .halted →
    exec .nextNotice s = .next (answerCommand (some .nextNotice) ⟨.wrongState, []⟩ s)) ∧
  (∀ (s : State) (n : Notice) (rest : List Notice), s.Ready → s.station.state ≠ .halted → s.port.notices = n :: rest →
    exec .nextNotice s = .next (answerCommand (some .nextNotice) ⟨.ok, BitVec.ofNat 8 rest.length :: n.bytes⟩
      (s.withPort { s.port with notices := rest }))) ∧
  (∀ s : State, s.Ready → s.station.state ≠ .halted → s.port.notices = [] →
    exec .nextNotice s = .next (answerCommand (some .nextNotice) ⟨.empty, [0]⟩ s)) ∧
  ∀ s : State, s.nirq = .low ↔ s.port.notices ≠ []

/-- STATUS, in every station state, reports the summary and clears the dropped count and the marks; nothing else changes (R178). -/
def Obligations.StatusReportsAndClears : Prop :=
  ∀ s : State, s.Ready →
    exec .status s = .next (answerCommand (some .status)
      ⟨.ok, [stationStateByte s.station.state, clockStateByte s.clock.state, s.clock.refId.getD 0] ++ bytes4 s.clock.lineTime ++
        [BitVec.ofNat 8 s.cues.armed.length, BitVec.ofNat 8 s.send.queue.length, BitVec.ofNat 8 s.send.issued.length,
          BitVec.ofNat 8 s.port.notices.length, (if s.port.reservation = none then 0 else 1),
          BitVec.ofNat 8 s.port.dropped] ++ bytes2 s.port.seen ++
        [s.station.id, (if s.station.eligible then 1 else 0), rateByte s.station.rate]⟩
      (s.withPort { s.port with dropped := 0, seen := 0 }))

/-- NCS falls: COMMAND. The command byte names the command, and one that names none is answered FORM. Argument bytes are collected in
ARGUMENTS, however the host spaces them, and the command is taken at its last one. In RESULTS what the host shifts in is ignored, each
byte shifts out one byte of the response, status first, and the last one leads to DONE, where fill bytes go out; bytes after the last
argument byte are such bytes. NCS rises after the
command was taken: the command stands. NCS rises before: nothing but the PORT mark, and that not before the first bit (R167 to
R169, R173, R182). That the record keeps command and response while WAITING, and holds no command after a transaction cut short,
is the model's choice (log entry 15); that bytes of one transaction come in further rows, or after the command in its own row, too (log
entry 31); that the arguments expected, before a length field has arrived, are those up to the next byte that fixes the length (log
entry 41); and that MISO carries the fill byte while WAITING (log entry 42). -/
def Obligations.TransactionsBeginAndEnd : Prop :=
  (∀ s : State, s.settled = true → s.inReset = false → s.pins.ncs = .high →
    exec .transactionBegin s = .next ((s.withPins { s.pins with ncs := .low }).withPort
      { s.port with phase := .command, command := none, argsExpected := 0, args := [], response := none, shifted := 0 })) ∧
  (∀ (straps : Straps) (name : CommandName) (args : List Byte), namedBy name.code = some name ∧
    commandOfBytes straps (name.code :: args) = some (commandRow straps name args)) ∧
  (∀ (straps : Straps) (code : Byte) (args : List Byte), (∀ name : CommandName, name.code ≠ code) →
    commandOfBytes straps (code :: args) = some (.unknownCommand code) ∧ knownCode code = false) ∧
  (∀ (s : State) (code : Byte), s.Ready → knownCode code = false →
    exec (.unknownCommand code) s = .next (answerCommand none ⟨.form, []⟩ s)) ∧
  (∀ (s : State) (straps : Straps) (name : CommandName) (args : List Byte) (n : Nat), s.settled = true → s.inReset = false →
    s.pins.ncs = .low → argumentShape name args = .collecting n →
    (s.port.phase = .command → exec (commandRow straps name args) s = .next (s.withPort { s.port with
      phase := .arguments, command := some name, argsExpected := n, args := args, response := none, shifted := 0 })) ∧
    ∀ more : List Byte, s.port.phase = .arguments → s.port.command = some name → s.port.args = args →
      exec (commandRow straps name more) s =
        exec (commandRow straps name (args ++ more)) (s.withPort { s.port with phase := .command })) ∧
  (∀ (s t : State) (straps : Straps) (name : CommandName) (args more : List Byte), s.Ready → s.pins.ncs = .low → args ≠ [] →
    argumentShape name args = .taken args → argumentShape name (args ++ more) = .taken args →
    exec (commandRow straps name args) s = .next t →
      t.port.phase = .results ∧ t.port.shifted = 0 ∧
        exec (commandRow straps name (args ++ more)) s = .next (t.withPort (t.port.clocked more.length))) ∧
  (∀ (s : State) (r : Response) (c : Instr), s.settled = true → s.inReset = false → s.port.phase = .results →
    s.port.response = some r → isHostCommand c = true →
    s.port.miso = (r.status.byte :: r.results).getD s.port.shifted 0xFF ∧
    (∃ phase shifted, exec c s = .next (s.withPort { s.port with phase := phase, shifted := shifted })) ∧
    ∀ code : Byte, exec (.unknownCommand code) s = .next (s.withPort { s.port with
      shifted := min (1 + r.results.length) (s.port.shifted + 1),
      phase := if r.results.length ≤ s.port.shifted then .done else .results })) ∧
  (∀ (s : State) (c : Instr), s.settled = true → s.port.phase = .done → isHostCommand c = true → exec c s = .next s) ∧
  (∀ p : Port, p.phase ≠ .results → p.miso = 0xFF) ∧
  (∀ s : State, s.settled = true → s.inReset = false → s.port.phase = .results ∨ s.port.phase = .done →
    exec .transactionEnd s = .next ((s.withPins { s.pins with ncs := .high }).withPort { s.port with phase := .waiting })) ∧
  (∀ (s : State) (bits : Nat), s.settled = true → s.inReset = false →
    (s.port.phase = .command ∧ bits ≠ 0) ∨ s.port.phase = .arguments →
    exec (.transactionCutShort bits) s = .next ((s.withPins { s.pins with ncs := .high }).withPort
      { s.port with phase := .waiting, command := none, argsExpected := 0, args := [], response := none, shifted := 0,
                    seen := s.port.seen ||| 0x8000 })) ∧
  ∀ s : State, s.settled = true → s.inReset = false → s.port.phase = .command →
    exec (.transactionCutShort 0) s = .next ((s.withPins { s.pins with ncs := .high }).withPort
      { s.port with phase := .waiting, command := none, argsExpected := 0, args := [], response := none, shifted := 0 })

/-! ### Views -/

/-- TIME and GET_POINTS report one instant and change nothing (R49, R83). -/
def Obligations.ClockAndPointViews : Prop :=
  ∀ s : State, s.Ready → s.station.state ≠ .halted →
    exec .time s = .next (answerCommand (some .time)
      ⟨.ok, bytes4 s.clock.lineTime ++
        [clockStateByte s.clock.state, s.clock.refId.getD 0, BitVec.ofInt 8 s.clock.slewRemainder]⟩ s) ∧
    ∃ mask : Word16, (∀ i : Fin 16, mask.getLsbD i.val = true ↔ ∃ r ∈ s.points.pulses, r.point = i) ∧
      exec .getPoints s = .next (answerCommand (some .getPoints)
        ⟨.ok, bytes2 s.points.levels ++ bytes2 s.points.owners ++ bytes2 mask ++ bytes4 s.clock.lineTime⟩ s)

/-- LIST_CUE returns the armed entry at an index of the table order, or NOT_FOUND with the cue count and the line time; it is
refused in HALTED, and changes nothing (R15). -/
def Obligations.ListCueReadsOneEntry : Prop :=
  ∀ (s : State) (index : Byte), s.Ready →
    (s.station.state = .halted →
      exec (.listCue [index]) s = .next (answerCommand (some .listCue) ⟨.wrongState, []⟩ s)) ∧
    (s.station.state ≠ .halted → ∀ h : index.toNat < s.cues.armed.length,
      let e := s.cues.armed[index.toNat]
      exec (.listCue [index]) s = .next (answerCommand (some .listCue)
        ⟨.ok, BitVec.ofNat 8 s.cues.armed.length :: (bytes4 s.clock.lineTime ++ ([e.key.issuer, e.key.serial] ++
          bytes4 e.fireTime ++ [e.scope.mode.code, e.scope.number] ++ planBytes e.rep e.actions ++
          [(if e.origin = .own then 1 else 0), (if e.withdrawPending then 1 else 0)]))⟩ s)) ∧
    (s.station.state ≠ .halted → s.cues.armed.length ≤ index.toNat →
      exec (.listCue [index]) s = .next (answerCommand (some .listCue)
        ⟨.notFound, BitVec.ofNat 8 s.cues.armed.length :: bytes4 s.clock.lineTime⟩ s))

/-- PEER returns one record; refused WRONG_STATE in HALTED, FORM for an ID of 0 or 63 and above, NOT_FOUND for the own ID; it
changes nothing (R164). -/
def Obligations.PeerReadsOneRecord : Prop :=
  ∀ (s : State) (id : Byte), s.Ready →
    (s.station.state = .halted → exec (.peer [id]) s = .next (answerCommand (some .peer) ⟨.wrongState, []⟩ s)) ∧
    (s.station.state ≠ .halted → id = 0 ∨ 63 ≤ id.toNat →
      exec (.peer [id]) s = .next (answerCommand (some .peer) ⟨.form, []⟩ s)) ∧
    (s.station.state ≠ .halted → 1 ≤ id.toNat → id.toNat ≤ 62 → id = s.station.id →
      exec (.peer [id]) s = .next (answerCommand (some .peer) ⟨.notFound, []⟩ s)) ∧
    (s.station.state ≠ .halted → id ≠ s.station.id → ∀ r, 1 ≤ id.toNat → id.toNat ≤ 62 →
      s.peers[id.toNat - 1]? = some r →
      exec (.peer [id]) s = .next (answerCommand (some .peer)
        ⟨.ok, [presenceByte r.presence] ++ bytes4 r.lastHeard ++ bytes2 (BitVec.ofNat 16 r.framesHeard) ++
          [BitVec.ofNat 8 r.silenceCount, (if r.beaconSender then 1 else 0)] ++ bytes4 s.clock.lineTime⟩ s))

/-! ### Points and the cue table -/

/-- SET_POINTS gives the host-owned points of the mask their levels, leaves and reports the line-owned ones, and touches nothing
else: no owner, no restore, no notice. In HALTED it is refused (R48). -/
def Obligations.SetPointsReachesHostOwnedPoints : Prop :=
  ∀ (s : State) (mask levels : Word16), s.Ready →
    (s.station.state = .halted →
      exec (.setPoints (bytes2 mask) (bytes2 levels)) s = .next (answerCommand (some .setPoints) ⟨.wrongState, []⟩ s)) ∧
    (s.station.state ≠ .halted → ∃ p ignored,
      exec (.setPoints (bytes2 mask) (bytes2 levels)) s =
        .next (answerCommand (some .setPoints) ⟨.ok, bytes2 ignored ++ bytes2 p.levels⟩ (s.withPoints p)) ∧
      p.owners = s.points.owners ∧ p.pulses = s.points.pulses ∧
      (∀ i : Fin 16, p.level i =
        if mask.getLsbD i.val = true ∧ s.points.owner i = .host then bitLevel (levels.getLsbD i.val) else s.points.level i) ∧
      ∀ i : Fin 16, ignored.getLsbD i.val = true ↔ mask.getLsbD i.val = true ∧ s.points.owner i = .line)

/-- DROP_CUE, its cases in order: HALTED, a bad issuer, the provisional key, no such key, and the removal of the armed entry with
CUE_REMOVED; the other entries keep their order and no other block is reached (R16). -/
def Obligations.DropCueRemovesOneEntry : Prop :=
  ∀ (s : State) (issuer serial : Byte), s.Ready →
    (s.station.state = .halted →
      exec (.dropCue [issuer] [serial]) s = .next (answerCommand (some .dropCue) ⟨.wrongState, []⟩ s)) ∧
    (s.station.state ≠ .halted → issuer = 0 ∨ 63 ≤ issuer.toNat →
      exec (.dropCue [issuer] [serial]) s = .next (answerCommand (some .dropCue) ⟨.form, []⟩ s)) ∧
    (s.station.state ≠ .halted → 1 ≤ issuer.toNat → issuer.toNat ≤ 62 →
      (∃ e, s.cues.provisional = some e ∧ e.key = ⟨issuer, serial⟩) →
      exec (.dropCue [issuer] [serial]) s = .next (answerCommand (some .dropCue) ⟨.busy, []⟩ s)) ∧
    (s.station.state ≠ .halted → 1 ≤ issuer.toNat → issuer.toNat ≤ 62 →
      (∀ e, s.cues.provisional = some e → e.key ≠ ⟨issuer, serial⟩) → (∀ e ∈ s.cues.armed, e.key ≠ ⟨issuer, serial⟩) →
      exec (.dropCue [issuer] [serial]) s = .next (answerCommand (some .dropCue) ⟨.notFound, []⟩ s)) ∧
    ∀ (before after : List CueEntry) (e : CueEntry), s.station.state ≠ .halted → 1 ≤ issuer.toNat → issuer.toNat ≤ 62 →
      (∀ x, s.cues.provisional = some x → x.key ≠ ⟨issuer, serial⟩) → s.cues.armed = before ++ e :: after →
      e.key = ⟨issuer, serial⟩ → (∀ x ∈ before ++ after, x.key ≠ ⟨issuer, serial⟩) →
      exec (.dropCue [issuer] [serial]) s = .next (answerCommand (some .dropCue) ⟨.ok, []⟩
        (notify (.cueRemoved ⟨issuer, serial⟩ .dropped e.fireTime ((e.rep.map (fun r => r.count)).getD 0) e.origin)
          (s.withCues { s.cues with armed := before ++ after })))

/-- An entry is inserted at the place its distance, issuer and serial give it, and the entries already there keep their order
(R10, R11). -/
def Obligations.InsertionKeepsTableOrder : Prop :=
  ∀ (base : Time) (e : CueEntry) (es : List CueEntry),
    es.Pairwise (fun x y => aheadOf base x y = true) → (∀ x ∈ es, x.key ≠ e.key) →
      (insertEntry base e es).Pairwise (fun x y => aheadOf base x y = true) ∧
        ∃ before after, es = before ++ after ∧ insertEntry base e es = before ++ e :: after

/-! ### Trigger inputs -/

/-- LOAD_TRIGGER in SETUP, LISTEN or ACTIVE loads a template whose scope, lead and body pass, or clears it at an action count of 0;
the answer tells whether an earlier one went; nothing else changes. Its refusals: WRONG_STATE in HALTED and SILENT; elsewhere FORM for
an input above 3, a bad scope, a lead below the minimum lead or a malformed body (R146). READ_CAPTURE returns a HELD or EXPIRED capture
and empties it, and answers EMPTY with level and line time where there is none; template, gap end and send queue stand; it is refused
WRONG_STATE in HALTED, and elsewhere FORM for an input above 3 (R144). That the level's one byte is 1 for HIGH is the model's reading
(log entry 36). -/
def Obligations.TriggerCommandsActOnOneInput : Prop :=
  (∀ (s : State) (i : Fin 4) (mode number l1 l0 : Byte), s.Ready →
    s.station.state = .setup ∨ s.station.state = .listen ∨ s.station.state = .active →
    (∀ (plan : List Byte) (scope : Scope) (b : CueBody), parseScope mode number = some scope →
      s.station.setup.minLead ≤ (word2 l1 l0).toNat → parseCue (0 :: 0 :: 0 :: 0 :: 0 :: plan) = some b →
      exec (.loadTrigger (BitVec.ofNat 8 i.val :: mode :: number :: l1 :: l0 :: plan)) s =
        .next (answerCommand (some .loadTrigger)
          ⟨.ok, [BitVec.ofNat 8 i.val, if (fourGet s.inputs i).template = none then 0 else 1]⟩
          (s.withInputs (fourSet s.inputs i { fourGet s.inputs i with
            template := some ⟨scope, word2 l1 l0, b.rep, b.actions⟩ })))) ∧
    ∀ control : Byte, control.extractLsb' 0 3 = 0 →
      exec (.loadTrigger [BitVec.ofNat 8 i.val, mode, number, l1, l0, control]) s =
        .next (answerCommand (some .loadTrigger)
          ⟨.ok, [BitVec.ofNat 8 i.val, if (fourGet s.inputs i).template = none then 0 else 1]⟩
          (s.withInputs (fourSet s.inputs i { fourGet s.inputs i with template := none })))) ∧
  (∀ (s : State) (input mode number l1 l0 control : Byte) (rest : List Byte), s.Ready →
    let args := input :: mode :: number :: l1 :: l0 :: control :: rest
    let refused (st : Status) : Prop := exec (.loadTrigger args) s = .next (answerCommand (some .loadTrigger) ⟨st, []⟩ s)
    loadTriggerShape args = .taken args →
      (s.station.state = .halted ∨ s.station.state = .silent → refused .wrongState) ∧
      (s.station.state ≠ .halted → s.station.state ≠ .silent →
        (4 ≤ input.toNat → refused .form) ∧
        (control.extractLsb' 0 3 ≠ 0 → parseScope mode number = none ∨ (word2 l1 l0).toNat < s.station.setup.minLead ∨
          parseCue (0 :: 0 :: 0 :: 0 :: 0 :: control :: rest) = none → refused .form))) ∧
  (∀ (s : State) (input : Byte), s.Ready →
    (s.station.state = .halted →
      exec (.readCapture [input]) s = .next (answerCommand (some .readCapture) ⟨.wrongState, []⟩ s)) ∧
    (s.station.state ≠ .halted → 4 ≤ input.toNat →
      exec (.readCapture [input]) s = .next (answerCommand (some .readCapture) ⟨.form, []⟩ s))) ∧
  ∀ (s : State) (i : Fin 4), s.Ready → s.station.state ≠ .halted →
    let level : Byte := if (if s.station.state = .setup then fourGet s.pins.ti i else (fourGet s.inputs i).level) = .high then 1 else 0
    let emptied := s.withInputs (fourSet s.inputs i { fourGet s.inputs i with capture := .empty })
    match (fourGet s.inputs i).capture with
    | .held time edge extra _ =>
      exec (.readCapture [BitVec.ofNat 8 i.val]) s = .next (answerCommand (some .readCapture)
        ⟨.ok, [BitVec.ofNat 8 i.val, 0] ++ bytes4 time ++ [edgeByte edge, BitVec.ofNat 8 extra, level] ++
          bytes4 s.clock.lineTime⟩ emptied)
    | .expired time edge extra =>
      exec (.readCapture [BitVec.ofNat 8 i.val]) s = .next (answerCommand (some .readCapture)
        ⟨.ok, [BitVec.ofNat 8 i.val, 1] ++ bytes4 time ++ [edgeByte edge, BitVec.ofNat 8 extra, level] ++
          bytes4 s.clock.lineTime⟩ emptied)
    | .empty =>
      exec (.readCapture [BitVec.ofNat 8 i.val]) s =
        .next (answerCommand (some .readCapture) ⟨.empty, level :: bytes4 s.clock.lineTime⟩ s)

/-- A change of an input's level after JOIN: a change the selection does not take moves the level only; an edge it takes starts a HELD
capture, or raises the extra count of the one held, up to 15; with no template, or inside the re-arm gap, nothing is emitted
(R141, R142, R147, R149). -/
def Obligations.EdgeIsCaptured : Prop :=
  ∀ (s : State) (i : Fin 4) (v : Level), s.settled = true → s.inReset = false → s.station.joined = true →
    (fourGet s.inputs i).level ≠ v →
    let seen := s.withPins { s.pins with ti := fourSet s.pins.ti i v }
    let input := fourGet s.inputs i
    (input.selection = .off ∨ (input.selection = .rise ∧ v = .low) ∨ (input.selection = .fall ∧ v = .high) →
      exec (.triggerEdge i v) s = .next (seen.withInputs (fourSet s.inputs i { input with level := v }))) ∧
    (input.selection = .both ∨ (input.selection = .rise ∧ v = .high) ∨ (input.selection = .fall ∧ v = .low) →
      input.template = none ∨ input.gapEnd ≠ none →
      exec (.triggerEdge i v) s = .next (seen.withInputs (fourSet s.inputs i { input with
        level := v,
        capture := caughtAt s.clock.lineTime (if v = .high then .rise else .fall) input.capture })))

/-- An edge outside the re-arm gap on an input with a template, in ACTIVE with a synced clock and room, makes a CUE entry that fires
the lead after the edge, sets the gap end and queues TRIGGER; in SILENT, unsynced or without room it is dropped and reported. Emitted
or dropped, the edge is captured first, as any edge is (R142, R147 to R150). -/
def Obligations.EdgeIsEmittedOrDropped : Prop :=
  ∀ (s : State) (i : Fin 4) (v : Level) (x : Template), s.settled = true → s.inReset = false → s.station.joined = true →
    (fourGet s.inputs i).level ≠ v →
    (fourGet s.inputs i).selection = .both ∨ ((fourGet s.inputs i).selection = .rise ∧ v = .high) ∨
      ((fourGet s.inputs i).selection = .fall ∧ v = .low) →
    (fourGet s.inputs i).template = some x → (fourGet s.inputs i).gapEnd = none →
    let now := s.clock.lineTime
    let fire := now + x.lead.setWidth 32
    let edge : Edge := if v = .high then .rise else .fall
    let caught := { fourGet s.inputs i with level := v, capture := caughtAt now edge (fourGet s.inputs i).capture }
    ∃ t, exec (.triggerEdge i v) s = .next t ∧ t.station = s.station ∧ t.clock = s.clock ∧ t.cues = s.cues ∧
      t.points = s.points ∧ t.line = s.line ∧ t.decoder = s.decoder ∧ t.peers = s.peers ∧ t.work = s.work ∧
      (∀ j : Fin 4, j ≠ i → fourGet t.inputs j = fourGet s.inputs j) ∧
      (s.station.state ≠ .silent → s.clock.state ≠ .unsynced → s.send.queue.length < 8 →
        s.send.issued.length + s.send.queuedCues < 32 →
        t.send = { s.send with
          counter := s.send.nextSerial + 1,
          queue := s.send.queue ++
            [{ handle := 0, source := .trigger i, kind := .cue, scope := x.scope,
               body := s.send.nextSerial :: (bytes4 fire ++ planBytes x.rep x.actions), serial := some s.send.nextSerial,
               attemptsLeft := s.station.setup.sendAttempts, losses := 0, brokenSeen := false, retire := false,
               inFlight := false }] } ∧
        fourGet t.inputs i = { caught with gapEnd :=
          if (fourGet s.inputs i).gap = 0 then none else some (now + BitVec.ofNat 32 (fourGet s.inputs i).gap) } ∧
        t.port = s.port.push (s.station.enables .trigger)
          (.trigger i .queued s.send.nextSerial (some edge) now fire now)) ∧
      (s.station.state = .silent → t.send = s.send ∧ fourGet t.inputs i = caught ∧
        t.port = s.port.push (s.station.enables .trigger) (.trigger i .droppedState 0 (some edge) now fire now)) ∧
      (s.station.state ≠ .silent → s.clock.state = .unsynced → t.send = s.send ∧ fourGet t.inputs i = caught ∧
        t.port = s.port.push (s.station.enables .trigger) (.trigger i .droppedUnsynced 0 (some edge) now fire now)) ∧
      (s.station.state ≠ .silent → s.clock.state ≠ .unsynced →
        8 ≤ s.send.queue.length ∨ 32 ≤ s.send.issued.length + s.send.queuedCues →
        t.send = s.send ∧ fourGet t.inputs i = caught ∧
          t.port = s.port.push (s.station.enables .trigger) (.trigger i .droppedFull 0 (some edge) now fire now))

/-! ### Line time -/

/-- A tick advances line time by one; while the remainder is not 0 it raises the slew phase, and the tick that would bring it to 32
advances line time by two, or holds it, and works off one tick of the remainder (R67, R70, R71, R77). The readers of an advance from
`base` by `size`: a HELD capture whose hold end it reaches is EXPIRED, a gap end it reaches is none, and the issued entries it goes
beyond leave the list, each reached by its distance from `base` (R130, R143, R149). That TICK met at the end of the slew span is the
slewed tick itself is the model's reading of R77 (log entry 9). -/
def Obligations.TicksAndTheirReaders : Prop :=
  (∀ s : State, s.settled = true → s.inReset = false →
    (s.clock.slewRemainder = 0 → exec .tick s = .next (s.atTick 1 0 0 s.clock.slewSinceMark)) ∧
    (s.clock.slewRemainder ≠ 0 → s.clock.slewPhase + 1 < 32 →
      exec .tick s = .next (s.atTick 1 s.clock.slewRemainder (s.clock.slewPhase + 1) s.clock.slewSinceMark)) ∧
    (0 < s.clock.slewRemainder → 32 ≤ s.clock.slewPhase + 1 →
      exec .slewedTick s = .next (s.atTick 2 (s.clock.slewRemainder - 1) 0 (s.clock.slewSinceMark + 1)) ∧
        exec .tick s = exec .slewedTick s) ∧
    (s.clock.slewRemainder < 0 → 32 ≤ s.clock.slewPhase + 1 →
      exec .slewedTick s = .next (s.atTick 0 (s.clock.slewRemainder + 1) 0 (s.clock.slewSinceMark - 1)) ∧
        exec .tick s = exec .slewedTick s)) ∧
  ∀ (s : State) (base : Time) (size : Nat), s.work.advance = some ⟨base, size⟩ →
    (∀ i : Fin 4, exec (.holdLimit i) s = .next (s.withInputs (fourSet s.inputs i { fourGet s.inputs i with
      capture := match (fourGet s.inputs i).capture with
        | .held time edge extra holdEnd =>
          if distance holdEnd base ≤ size then .expired time edge extra else .held time edge extra holdEnd
        | c => c }))) ∧
    (∀ i : Fin 4, exec (.gapEnd i) s = .next (s.withInputs (fourSet s.inputs i { fourGet s.inputs i with
      gapEnd := (fourGet s.inputs i).gapEnd.filter (fun t => decide (size < distance t base)) }))) ∧
    exec .ageOut s = .next (s.withSend { s.send with
      issued := s.send.issued.filter (fun x => decide (size ≤ distance x.lastFire base)) })

/-- A beacon due time: the one count of the clock state rises while it stays below its limit, a beacon is placed where
eligibility, ACTIVE, the clock state and an empty slot allow, and the peer records age (R72, R84, R163). -/
def Obligations.DueTimeCountsPlacesAndAges : Prop :=
  ∀ s : State, s.work.due = true →
    ∃ t, exec .beaconDueTime s = .next t ∧ sameBesidesDueTime s t ∧ t.peers = s.peers.map agedRecord ∧
      (s.clock.state = .following → s.clock.missCount < 2 →
        t.clock = { s.clock with missCount := s.clock.missCount + 1 } ∧ t.station = s.station) ∧
      (s.clock.state = .holdover → s.clock.holdoverCount < 63 →
        t.clock = { s.clock with holdoverCount := s.clock.holdoverCount + 1 } ∧ t.station = s.station) ∧
      (s.clock.state = .unsynced → s.clock.window = .running → s.clock.windowCount < 3 →
        t.clock = { s.clock with windowCount := s.clock.windowCount + 1 } ∧ t.station = s.station) ∧
      (s.clock.state = .reference ∨ (s.clock.state = .unsynced ∧ s.clock.window ≠ .running) →
        t.clock = s.clock ∧ t.station = s.station) ∧
      (s.station.eligible = true → t.station.state = .active → s.send.slot = .empty →
        t.clock.state = .reference ∨ t.clock.state = .holdover ∨
          (t.clock.state = .following ∧ ∃ r, t.clock.refId = some r ∧ s.station.id.toNat < r.toNat) ∨
          (t.clock.state = .unsynced ∧ t.clock.window = .expired) →
        t.send.slot = .queued) ∧
      (s.station.eligible = false ∨ t.station.state ≠ .active ∨ s.send.slot ≠ .empty ∨
          (t.clock.state = .following ∧ ∃ r, t.clock.refId = some r ∧ r.toNat ≤ s.station.id.toNat) ∨
          (t.clock.state = .unsynced ∧ t.clock.window ≠ .expired) →
        t.send.slot = s.send.slot)

/-- The due times that reach a limit: the reference is lost at the third miss, synchronisation at the sixty-fourth holdover due
time, the first-listen window expires at the fourth and takes an eligible LISTEN station to ACTIVE, and a peer unheard for 8 is
SILENT, with PEER. The rest of the due time is taken with each (R72, R79 to R81, R158, R163, R165). That each of these rows takes the
whole due time, as BEACON_DUE_TIME does, is the model's reading (log entry 10). -/
def Obligations.DueTimesThatReachALimit : Prop :=
  ∀ s : State, s.work.due = true →
    (s.clock.state = .following → 2 ≤ s.clock.missCount →
      ∃ t, exec .referenceLost s = .next t ∧ sameBesidesDueTime s t ∧ t.peers = s.peers.map agedRecord ∧
        t.clock = { s.clock with state := .holdover, refId := none, missCount := 0, holdoverCount := 0 } ∧
        t.station = s.station ∧
        (s.port.used < 16 → s.station.enables .clock = true → ∃ rest, t.port.notices = s.port.notices ++
          (.clock .referenceLost .following .holdover none 0 false .holdover s.clock.lineTime :: rest)) ∧
        exec .beaconDueTime s = .next t) ∧
    (s.clock.state = .holdover → 63 ≤ s.clock.holdoverCount →
      ∃ t, exec .holdoverLimit s = .next t ∧ sameBesidesDueTime s t ∧ t.peers = s.peers.map agedRecord ∧
        t.clock = { s.clock with state := .unsynced, slewRemainder := 0, slewPhase := 0, holdoverCount := 0, window := .running,
                                 windowCount := 0 } ∧
        t.station = s.station ∧ t.send.slot = s.send.slot ∧
        (s.port.used < 16 → s.station.enables .clock = true → ∃ rest, t.port.notices = s.port.notices ++
          (.clock .holdoverLimit .holdover .unsynced s.clock.refId 0 false .unsynced s.clock.lineTime :: rest)) ∧
        exec .beaconDueTime s = .next t) ∧
    (s.clock.state = .unsynced → s.clock.window = .running → 3 ≤ s.clock.windowCount →
      ∃ t, exec .firstListenExpiry s = .next t ∧ sameBesidesDueTime s t ∧ t.peers = s.peers.map agedRecord ∧
        t.clock = { s.clock with window := .expired, windowCount := 4 } ∧
        t.station = { s.station with
          state := if s.station.eligible = true ∧ s.station.state = .listen then .active else s.station.state } ∧
        (s.station.eligible = true → s.station.state = .listen ∨ s.station.state = .active → s.send.slot = .empty →
          t.send.slot = .queued) ∧
        exec .beaconDueTime s = .next t) ∧
    ∀ (id : Byte) (r : PeerRecord), 1 ≤ id.toNat → id.toNat ≤ 62 → s.peers[id.toNat - 1]? = some r →
      r.presence = .present → 7 ≤ r.silenceCount →
      ∃ t, exec (.peerSilence id) s = .next t ∧ sameBesidesDueTime s t ∧ t.peers = s.peers.map agedRecord ∧
        t.peers[id.toNat - 1]? = some { r with presence := .silent, silenceCount := 8, beaconSender := false } ∧
        (s.station.enables .peer = true →
          s.port.used + 1 + (s.peers.filter (fun x => decide (x.presence = .present ∧ 7 ≤ x.silenceCount))).length ≤ 16 →
          .peer id .present .silent r.lastHeard r.framesHeard s.clock.lineTime ∈ t.port.notices) ∧
        exec .beaconDueTime s = .next t

/-! ### Firing and restores -/

/-- What one action does to a point: nothing on a host-owned one; on a line-owned one the op's level, with the pending restore
cancelled, or replaced by one at the scheduled fire time plus the width for a pulse. No other point changes (R53, R54, R62,
R63). -/
def Obligations.ActionOnAPoint : Prop :=
  ∀ (p : Points) (fire : Time) (a : Action) (as : List Action),
    let q := applyActions fire [a] p
    applyActions fire (a :: as) p = applyActions fire as q ∧ q.owners = p.owners ∧
    (p.owner a.point = .host → q = p) ∧
    (p.owner a.point = .line →
      (∀ j : Fin 16, j ≠ a.point → q.level j = p.level j) ∧
      (∀ r : Restore, r.point ≠ a.point → (r ∈ q.pulses ↔ r ∈ p.pulses)) ∧
      match a.op with
      | .raise => q.level a.point = .high ∧ ∀ r ∈ q.pulses, r.point ≠ a.point
      | .lower => q.level a.point = .low ∧ ∀ r ∈ q.pulses, r.point ≠ a.point
      | .invert => q.level a.point ≠ p.level a.point ∧ ∀ r ∈ q.pulses, r.point ≠ a.point
      | .pulseHigh w => q.level a.point = .high ∧
          ∀ r : Restore, r.point = a.point → (r ∈ q.pulses ↔ r = ⟨a.point, fire + w.setWidth 32, .low⟩)
      | .pulseLow w => q.level a.point = .low ∧
          ∀ r : Restore, r.point = a.point → (r ∈ q.pulses ↔ r = ⟨a.point, fire + w.setWidth 32, .high⟩))

/-- The head of the table fires when the advance reaches it and no earlier restore is due. A one-shot entry leaves; a repeating one is
put back at the first of its times that the advance has not passed, the ones passed over being skipped, or leaves when its count
runs out first. CUE_FIRED tells which (R51 to R59). That the place of an entry put back is measured from the base of the advance, where
R55 names T, is the model's reading (log entry 33). -/
def Obligations.FiringOfTheHead : Prop :=
  ∀ (s : State) (base : Time) (size : Nat) (e : CueEntry) (rest : List CueEntry),
    s.work.advance = some ⟨base, size⟩ → size < 2 ^ 31 → s.cues.armed = e :: rest → distance e.fireTime base ≤ size →
    (∀ r ∈ s.points.pulses, distance r.time base ≤ size → distance e.fireTime base ≤ distance r.time base) →
    let actual := base + BitVec.ofNat 32 size
    let late := decide (distance e.fireTime base < size)
    let skipped := (e.actions.filter (fun a => decide (s.points.owner a.point = .host))).length
    let fired (put : Option CueEntry) (left missed : Nat) :=
      notify (.cueFired e.key e.fireTime actual late skipped left missed (decide (put = none)))
        ((s.withPoints (applyActions e.fireTime e.actions s.points)).withCues { s.cues with
          armed := match put with
            | some e' => insertEntry base e' rest
            | none => rest })
    (e.rep = none → exec .firing s = .next (fired none 0 0)) ∧
    ∀ (r : Repeat) (k : Nat), e.rep = some r → 0 < r.period.toNat → 1 ≤ k →
      (k - 1) * r.period.toNat ≤ size - distance e.fireTime base → size - distance e.fireTime base < k * r.period.toNat →
      (r.count.toNat < k → exec .firing s = .next (fired none 0 r.count.toNat)) ∧
      (k ≤ r.count.toNat → exec .firing s = .next (fired
        (some { e with
          fireTime := e.fireTime + BitVec.ofNat 32 (k * r.period.toNat),
          rep := if k = r.count.toNat then none else some ⟨r.period, BitVec.ofNat 8 (r.count.toNat - k)⟩ })
        (r.count.toNat - k) (k - 1)))

/-- The earliest due restores are applied together when no entry is due at their time or before: their points take the restore
levels and are no longer pending; nothing else changes (R51, R52, R64). -/
def Obligations.RestoresAreAppliedInTheirTurn : Prop :=
  ∀ (s : State) (base : Time) (size : Nat) (first : Restore),
    s.work.advance = some ⟨base, size⟩ → first ∈ s.points.pulses → distance first.time base ≤ size →
    (∀ r ∈ s.points.pulses, distance first.time base ≤ distance r.time base) →
    (∀ (e : CueEntry) (rest : List CueEntry), s.cues.armed = e :: rest →
      distance first.time base < distance e.fireTime base) →
    (s.points.pulses.map (fun r => r.point)).Nodup →
    ∃ p, exec .restore s = .next (s.withPoints p) ∧ p.owners = s.points.owners ∧
      p.pulses = s.points.pulses.filter (fun r => decide (distance r.time base ≠ distance first.time base)) ∧
      (∀ r ∈ s.points.pulses, distance r.time base = distance first.time base → p.level r.point = r.level) ∧
      ∀ i : Fin 16, (∀ r ∈ s.points.pulses, distance r.time base = distance first.time base → r.point ≠ i) →
        p.level i = s.points.level i

/-! ### Frames at the evaluation point -/

/-- The lead and horizon of an offer, by the distance of its fire time from the line time at the evaluation point (R28). -/
def Obligations.LeadAndHorizon : Prop :=
  ∀ (minLead : Nat) (fire now : Time), 8 ≤ minLead → minLead ≤ 1023 →
    let d := (fire - now).toNat
    (1 ≤ d → d ≤ minLead - 1 → leadVerdict minLead fire now = some .tooLate) ∧
    (d = 0 ∨ 2 ^ 31 ≤ d → leadVerdict minLead fire now = some .tooLate) ∧
    (minLead ≤ d → d ≤ 2 ^ 24 → leadVerdict minLead fire now = none) ∧
    (2 ^ 24 + 1 ≤ d → d ≤ 2 ^ 31 - 1 → leadVerdict minLead fire now = some .tooFar)

/-- A frame whose check failed is answered VETO, whatever it seems to be, and leaves no trace: no header test, no owner, no peer
report, no notice (R113, R114, R120). -/
def Obligations.DamagedFrameIsVetoed : Prop :=
  ∀ s : State, s.atLastCheckBit → s.rxCheck ≠ s.decoder.checkAcc →
    exec .evaluationPoint s = .next (((s.withWork Work.none).withLine { s.line with
        state := .answering, arbitration := if s.line.arbitration = .contending then .won else s.line.arbitration }).withDecoder
      { s.decoder with checkStatus := .failed, answer := some .veto })

/-- The header tests of an intact frame: an undefined kind, then each inconsistent header, is answered NONE with LINE_ERROR and
reaches no owner and no peer record; any other header is GOOD (R115, R116, R120). -/
def Obligations.HeaderTestsOfAnIntactFrame : Prop :=
  ∀ (s : State) (kind : BitVec 3) (sender number : Byte) (mode : ScopeMode) (length : Nat),
    s.atLastCheckBit → s.rxCheck = s.decoder.checkAcc → s.decoder.kind = some kind → s.decoder.sender = some sender →
    s.decoder.scopeMode = some mode → s.decoder.scopeNumber = some number → s.decoder.length = some length →
    let line := s.line.atEvaluation
    let bad (status : HeaderStatus) (cause : LineErrorCause) :=
      notify (.lineError cause none .answering s.line.position s.line.role (some kind) (some sender) s.clock.lineTime)
        (((s.withWork Work.none).withLine line).withDecoder
          { s.decoder with checkStatus := .intact, headerStatus := status, answer := some .none })
    (4 ≤ kind.toNat → exec .evaluationPoint s = .next (bad .kind .kind)) ∧
    (kind.toNat < 4 →
      sender = 0 ∨ sender = 63 ∨ 25 ≤ length ∨ (mode = .group ∧ number = 255) ∨
        (mode = .station ∧ (number = 0 ∨ 63 ≤ number.toNat)) ∨ (kind = 0 ∧ (mode = .station ∨ number ≠ 0)) →
      exec .evaluationPoint s = .next (bad .form .form)) ∧
    (kind.toNat < 4 → sender ≠ 0 → sender ≠ 63 → length < 25 → (mode = .group → number ≠ 255) →
      (mode = .station → number ≠ 0 ∧ number.toNat < 63) → (kind = 0 → mode = .group ∧ number = 0) →
      ∃ t, exec .evaluationPoint s = .next t ∧ t.decoder.headerStatus = .good ∧ t.decoder.checkStatus = .intact ∧
        t.decoder.answer ≠ none ∧ t.line = line)

/-- A good frame addresses this station exactly when its scope is GROUP 0, a group of its list, or its own ID; a BEACON always
does, in every station state and for its own frames as for others' (R117). -/
def Obligations.ScopeTestOfAGoodFrame : Prop :=
  ∀ (s : State) (kind : BitVec 3) (sender : Byte) (scope : Scope), s.atLastCheckBit → s.goodFrame kind sender scope →
    ∃ t, exec .evaluationPoint s = .next t ∧
      (t.decoder.addressed = true ↔
        scope = ⟨.group, 0⟩ ∨ (scope.mode = .group ∧ scope.number ∈ s.station.setup.groups) ∨
          scope = ⟨.station, s.station.id⟩) ∧
      (kind = 0 → t.decoder.addressed = true)

/-- A good frame of another station updates its sender's peer record, with PEER when the station was not PRESENT before and with none
when it was; one that bears this station's ID, not sent by it to completion, updates none and raises the duplicate ID in LISTEN and
ACTIVE; an own frame does neither (R119, R162, R165, R166). -/
def Obligations.GoodFrameIsReported : Prop :=
  ∀ (s : State) (kind : BitVec 3) (sender : Byte) (scope : Scope), s.atLastCheckBit → s.goodFrame kind sender scope →
    (∀ r : PeerRecord, s.decoder.ownFrame = false → sender ≠ s.station.id → s.peers[sender.toNat - 1]? = some r →
      ∃ t, exec .evaluationPoint s = .next t ∧ t.station = s.station ∧ t.peers = s.peers.set (sender.toNat - 1)
        { presence := .present, lastHeard := s.clock.lineTime, framesHeard := min 65535 (r.framesHeard + 1), silenceCount := 0,
          beaconSender := decide (kind = 0) || r.beaconSender } ∧
        (r.presence ≠ .present → s.station.enables .peer = true → s.port.used + 2 ≤ 16 →
          .peer sender r.presence .present s.clock.lineTime (min 65535 (r.framesHeard + 1)) s.clock.lineTime ∈
            t.port.notices) ∧
        (r.presence = .present → ∀ n ∈ t.port.notices, n.cls = .peer → n ∈ s.port.notices)) ∧
    (s.decoder.ownFrame = false → sender = s.station.id →
      ∃ t, exec .evaluationPoint s = .next t ∧ t.peers = s.peers ∧ t.decoder.foreignOwnId = true ∧
        t.station = { s.station with
          dupPending := s.station.dupPending || decide (s.station.state = .listen ∨ s.station.state = .active) }) ∧
    (s.decoder.ownFrame = true → s.line.arbitration = .contending ∨ s.line.arbitration = .won →
      ∃ t, exec .evaluationPoint s = .next t ∧ t.peers = s.peers ∧ t.station = s.station ∧ t.decoder.foreignOwnId = false)

/-- An addressed CUE at its evaluation point: the checks in their order at an ACTIVE synced station, the provisional entry of an
offer that passes them all, and NONE with OFFER_MISSED, its cause LISTENING, SILENT or UNSYNCED, where the station takes no part
(R21, R23, R25, R27 to R31). That a body too short for a serial is missed with serial 0 is the model's reading (log entry 34). -/
def Obligations.CueOfferIsAnswered : Prop :=
  ∀ (s : State) (sender : Byte) (scope : Scope), s.atLastCheckBit → s.goodFrame 2 sender scope →
    addresses s.station scope = true →
    ∃ t, exec .evaluationPoint s = .next t ∧ t.clock = s.clock ∧ t.points = s.points ∧ t.send = s.send ∧ t.inputs = s.inputs ∧
      t.cues.armed = s.cues.armed ∧
      let key (b : CueBody) : Key := ⟨sender, b.serial⟩
      let refused (reason : RefusalReason) : Prop :=
        t.decoder.answer = some .veto ∧ t.cues.provisional = s.cues.provisional ∧
          t.cues.offer = some ⟨.cue, ⟨sender, bodySerial s.rxBody⟩, .veto, .none⟩ ∧
          (s.port.used + 2 ≤ 16 → s.station.enables .offerRefused = true →
            .offerRefused .cue ⟨sender, bodySerial s.rxBody⟩ reason (bodyFireTime s.rxBody) s.clock.lineTime ∈ t.port.notices)
      (s.station.state = .listen ∨ s.station.state = .silent ∨ (s.station.state = .active ∧ s.clock.state = .unsynced) →
        t.decoder.answer = some .none ∧ t.cues = s.cues ∧ t.port.seen.getLsbD 5 = true ∧
          (s.port.used + 2 ≤ 16 → s.station.enables .offerMissed = true →
            .offerMissed .cue ⟨sender, bodySerial s.rxBody⟩ (match s.station.state with
              | .listen => .listening
              | .silent => .silent
              | _ => .unsynced) (bodyFireTime s.rxBody) ∈ t.port.notices)) ∧
      (s.station.state = .active → s.clock.state ≠ .unsynced →
        (parseCue s.rxBody = none → refused .form) ∧
        ∀ b, parseCue s.rxBody = some b →
          (∀ e, s.cues.find (key b) = some e →
            ((e.fireTime = b.fireTime ∧ e.scope = scope ∧ e.actions = b.actions ∧ e.rep = b.rep) →
              t.decoder.answer = some .take ∧ t.cues = { s.cues with offer := some ⟨.cue, key b, .take, .held⟩ }) ∧
            (¬(e.fireTime = b.fireTime ∧ e.scope = scope ∧ e.actions = b.actions ∧ e.rep = b.rep) →
              refused .keyConflict)) ∧
          (s.cues.find (key b) = none →
            let d := distance b.fireTime s.clock.lineTime
            (d < s.station.setup.minLead ∨ 2 ^ 31 ≤ d → refused .tooLate) ∧
            (s.station.setup.minLead ≤ d → 2 ^ 24 < d → d < 2 ^ 31 → refused .tooFar) ∧
            (s.station.setup.minLead ≤ d → d ≤ 2 ^ 24 → 32 ≤ s.cues.held → refused .full) ∧
            (s.station.setup.minLead ≤ d → d ≤ 2 ^ 24 → s.cues.held < 32 →
              t.decoder.answer = some .take ∧
              t.cues = { s.cues with
                provisional := some { key := key b, fireTime := b.fireTime, scope := scope, actions := b.actions, rep := b.rep,
                                      origin := if s.decoder.ownFrame then .own else .line, withdrawPending := false },
                offer := some ⟨.cue, key b, .take, .newEntry⟩ })))

/-- The other owners' answers. An addressed WITHDRAW at an ACTIVE station: a body of other than one byte is vetoed FORM; a key not
held is answered NONE; a held entry outside the lead window is marked and taken, one inside it vetoed TOO_LATE; OFFER_REFUSED gives
the reason. At a SILENT station it is answered NONE, with OFFER_MISSED for a held key, and in LISTEN NONE (R30, R38, R39, R42). A
BEACON with this station's period code is answered TAKE, and another station's fills the beacon record; an own one, or one with this
station's ID, fills none; another period code is answered NONE with CONFIG_MISMATCH, a malformed body NONE with LINE_ERROR (R75, R82).
An addressed MESSAGE, an own one too, is answered NONE where the station is not ACTIVE, NONE with LINE_ERROR for an empty body, else
TAKE with a record reserved while one is free, else VETO, counted as dropped. With one record free and a PEER report at the same
instant, either comes first (R121, R174). The model's readings here: a WITHDRAW missed in LISTEN or SILENT leaves the offer record empty
(log entry 39), and at a SILENT station one with a body of more than one byte names the serial of its first byte (log entry 34). One of
no byte there is not stated (log entry 34). -/
def Obligations.OtherOffersAreAnswered : Prop :=
  (∀ (s : State) (sender : Byte) (scope : Scope), s.atLastCheckBit → s.goodFrame 1 sender scope →
    addresses s.station scope = true →
    let now := s.clock.lineTime
    let named : Key := ⟨sender, bodySerial s.rxBody⟩
    ∃ t, exec .evaluationPoint s = .next t ∧ t.clock = s.clock ∧ t.points = s.points ∧ t.send = s.send ∧ t.inputs = s.inputs ∧
      t.cues.provisional = s.cues.provisional ∧
      let refused (key : Key) (reason : RefusalReason) (fire : Time) : Prop :=
        t.decoder.answer = some .veto ∧ t.cues.armed = s.cues.armed ∧ t.cues.offer = some ⟨.withdraw, key, .veto, .none⟩ ∧
          (s.port.used + 2 ≤ 16 → s.station.enables .offerRefused = true →
            .offerRefused .withdraw key reason fire now ∈ t.port.notices)
      (s.station.state = .active →
        (s.rxBody.length ≠ 1 → refused named .form 0) ∧
        ∀ serial, s.rxBody = [serial] →
          ((∀ e ∈ s.cues.armed, e.key ≠ ⟨sender, serial⟩) → t.decoder.answer = some .none ∧ t.cues.armed = s.cues.armed ∧
            t.cues.offer = some ⟨.withdraw, ⟨sender, serial⟩, .none, .none⟩) ∧
          ∀ (before after : List CueEntry) (e : CueEntry), s.cues.armed = before ++ e :: after → e.key = ⟨sender, serial⟩ →
            (∀ x ∈ before ++ after, x.key ≠ ⟨sender, serial⟩) →
            let d := distance e.fireTime now
            (s.station.setup.minLead ≤ d → d < 2 ^ 31 →
              t.decoder.answer = some .take ∧ t.cues.armed = before ++ { e with withdrawPending := true } :: after ∧
                t.cues.offer = some ⟨.withdraw, ⟨sender, serial⟩, .take, .marked⟩) ∧
            (d < s.station.setup.minLead ∨ 2 ^ 31 ≤ d → refused ⟨sender, serial⟩ .tooLate e.fireTime)) ∧
      (s.station.state = .silent → s.rxBody ≠ [] → t.decoder.answer = some .none ∧ t.cues = s.cues ∧
        ((∀ e ∈ s.cues.armed, e.key ≠ named) → ∀ n ∈ t.port.notices, n.cls = .offerMissed → n ∈ s.port.notices) ∧
        ∀ (before after : List CueEntry) (e : CueEntry), s.cues.armed = before ++ e :: after → e.key = named →
          (∀ x ∈ before, x.key ≠ named) → s.port.used + 2 ≤ 16 → s.station.enables .offerMissed = true →
          .offerMissed .withdraw named .silent e.fireTime ∈ t.port.notices) ∧
      (s.station.state = .listen → t.decoder.answer = some .none ∧ t.cues = s.cues ∧
        ∀ n ∈ t.port.notices, n.cls = .offerMissed → n ∈ s.port.notices)) ∧
  (∀ (s : State) (sender : Byte) (scope : Scope), s.atLastCheckBit → s.goodFrame 0 sender scope →
    let now := s.clock.lineTime
    ∃ t, exec .evaluationPoint s = .next t ∧ t.cues = s.cues ∧ t.points = s.points ∧ t.send = s.send ∧ t.inputs = s.inputs ∧
      (∀ time code state, parseBeacon s.rxBody = some (time, code, state) →
        (code = s.station.setup.periodCode → t.decoder.answer = some .take ∧
          (s.decoder.ownFrame = false → sender ≠ s.station.id →
            t.clock = { s.clock with beacon := some ⟨sender, time, state, s.clock.markTime⟩ }) ∧
          (s.decoder.ownFrame = true ∨ sender = s.station.id → t.clock = s.clock)) ∧
        (code ≠ s.station.setup.periodCode → t.decoder.answer = some .none ∧ t.clock = s.clock ∧
          t.port.seen.getLsbD 12 = true ∧
          (s.port.used + 2 ≤ 16 → s.station.enables .configMismatch = true →
            .configMismatch sender code s.station.setup.periodCode now ∈ t.port.notices))) ∧
      (parseBeacon s.rxBody = none → t.decoder.answer = some .none ∧ t.clock = s.clock ∧ t.port.seen.getLsbD 9 = true ∧
        (s.port.used + 2 ≤ 16 → s.station.enables .lineError = true →
          .lineError .form none .answering s.line.position s.line.role (some 0) (some sender) now ∈ t.port.notices))) ∧
  ∀ (s : State) (sender : Byte) (scope : Scope), s.atLastCheckBit → s.goodFrame 3 sender scope →
    addresses s.station scope = true →
    let now := s.clock.lineTime
    let peer := s.peer sender
    let heard : Notice := .peer sender peer.presence .present now (min 65535 (peer.framesHeard + 1)) now
    let reports : Bool := !s.decoder.ownFrame && decide (sender ≠ s.station.id) && decide (peer.presence ≠ .present) &&
      s.station.enables .peer
    ∃ t, exec .evaluationPoint s = .next t ∧ t.cues = s.cues ∧ t.points = s.points ∧ t.send = s.send ∧ t.inputs = s.inputs ∧
      t.clock = s.clock ∧
      let taken : Prop := t.decoder.answer = some .take ∧ t.port.reservation = some ⟨sender, scope⟩
      let vetoed : Prop := t.decoder.answer = some .veto ∧ t.port.reservation = s.port.reservation ∧
        t.port.seen.getLsbD 6 = true
      (s.station.state ≠ .active → t.decoder.answer = some .none ∧ t.port.reservation = s.port.reservation) ∧
      (s.station.state = .active →
        (s.rxBody = [] → t.decoder.answer = some .none ∧ t.port.reservation = s.port.reservation ∧
          (s.port.used + 2 ≤ 16 → s.station.enables .lineError = true →
            .lineError .form none .answering s.line.position s.line.role (some 3) (some sender) now ∈ t.port.notices)) ∧
        (s.rxBody ≠ [] →
          (s.port.used + 2 ≤ 16 → taken) ∧
          (s.port.used = 15 → reports = false → taken ∧ t.port.notices = s.port.notices) ∧
          (s.port.used = 15 → reports = true → s.port.reservation = none →
            t.port.dropped = min 255 (s.port.dropped + 1) ∧
              ((taken ∧ t.port.notices = s.port.notices) ∨ (vetoed ∧ t.port.notices = s.port.notices ++ [heard]))) ∧
          (16 ≤ s.port.used → vetoed ∧ t.port.notices = s.port.notices ∧
            t.port.dropped = min 255 (s.port.dropped + if reports then 2 else 1))))

/-! ### The course of a frame on the line -/

/-- A start condition in IDLE begins a frame: the mark is latched, the decoder empty, the position 0; another station's fall makes
this station a receiver and the offer lapses; its own makes it a contending sender of the offered frame, whose beacon body is built
from the clock at the mark (R74, R85, R93, R97, R110). -/
def Obligations.StartConditionBeginsAFrame : Prop :=
  ∀ s : State, s.settled = true → s.line.state = .idle →
    let marked := { s.clock with markTime := s.clock.lineTime, slewSinceMark := 0 }
    (∃ t, exec (.startCondition false) s = .next t ∧ t.line.state = .receiving ∧ t.line.role = .receiver ∧
      t.line.arbitration = .none ∧ t.line.position = some 0 ∧ t.line.frameLength = none ∧ t.line.rx = [] ∧
      t.line.drivesPace = false ∧ t.line.drivesData = false ∧ t.line.driving = decide (s.station.state = .active) ∧
      t.decoder = Decoder.reset ∧ t.clock = marked ∧ t.send = { s.send with offered := .none } ∧ t.station = s.station ∧
      t.cues = s.cues ∧ t.points = s.points ∧ t.inputs = s.inputs ∧ t.peers = s.peers ∧ t.port = s.port) ∧
    (s.send.offered ≠ .none →
      ∃ t, exec (.startCondition true) s = .next t ∧ t.line.state = .sending ∧ t.line.role = .sender ∧
        t.line.arbitration = .contending ∧ t.line.position = some 0 ∧ t.line.frameLength = none ∧ t.line.rx = [] ∧
        t.line.drivesPace = false ∧ t.line.drivesData = true ∧ t.decoder = { Decoder.reset with ownFrame := true } ∧
        t.clock = marked ∧ t.station = s.station ∧ t.cues = s.cues ∧ t.points = s.points ∧ t.inputs = s.inputs ∧
        t.peers = s.peers ∧ t.port = s.port ∧
        (s.send.offered = .beacon → t.send = { s.send with slot := .inFlight, offered := .none } ∧
          t.line.tx = frameBits 0 s.station.id ⟨.group, 0⟩
            (bytes4 s.clock.lineTime ++ [s.station.setup.periodCode, clockStateByte s.clock.state])) ∧
        ∀ (e : SendEntry) (rest : List SendEntry), s.send.offered = .head → s.send.queue = e :: rest →
          t.send = { s.send with queue := { e with inFlight := true } :: rest, offered := .none } ∧
          t.line.tx = frameBits e.kind.code s.station.id e.scope e.body)

/-- A rise of PACE in a frame samples one more bit. A contending sender that sent recessive and reads dominant has lost, and
ARBITRATION_LOST then makes it a receiver and returns its head to the queue with one loss more, or ends it PURGED when PURGE marked
it; a beacon that loses leaves its slot; one that sent dominant and reads recessive, and any station that reads a recessive end bit,
aborts the frame as FRAMING does, at the position just sampled: the owner discards what it kept, the attempt is BROKEN and LINE_ERROR
reports it (R86, R92, R98, R101, R107 to R109, R122, R132, R133, R136, R138). The model's own, as with every abort: the other fields of the
frame cleared (log entry 14), STATION after LINE_ERROR (21). -/
def Obligations.BitsAndArbitration : Prop :=
  ∀ (s : State) (data : Level) (p : Nat), s.settled = true → s.line.inFrame = true →
    s.line.stretch ≠ .holding ∨ s.line.answered = true → s.line.position = some p → (∀ n, s.line.frameLength = some n → p < n) →
    let contends := s.line.state = .sending ∧ s.line.arbitration = .contending
    (¬(contends ∧ s.line.tx[p]? = some (data == .low)) →
      ¬(s.decoder.length.map frameLengthOf = some (p + 1) ∧ data = .high) →
      ∃ t, exec (.bitSample data) s = .next t ∧ sameBesidesLine s t ∧ t.line.position = some (p + 1) ∧
        t.line.state = s.line.state ∧ t.line.role = s.line.role ∧ t.line.dataWire = data ∧ t.line.paceWire = .high ∧
        t.line.drivesPace = false ∧ t.line.drivesData = s.line.drivesData ∧ t.work.arbLost = false ∧
        (∀ n, s.decoder.length = some n → 23 ≤ p →
          t.line.takeSlot = (if p = 39 + 8 * n then some data else s.line.takeSlot) ∧
          t.line.vetoSlot = (if p = 40 + 8 * n then some data else s.line.vetoSlot) ∧
          (t.work.evaluate = true ↔ p + 1 = 39 + 8 * n) ∧
          t.decoder.checkAcc = (if p < 23 + 8 * n then checkFeed s.decoder.checkAcc (levelBit data) else s.decoder.checkAcc))) ∧
    (contends → s.line.tx[p]? = some true → data = .low →
      ∃ t, exec (.bitSample data) s = .next t ∧ sameBesidesLine s t ∧ t.line.position = some (p + 1) ∧ t.work.arbLost = true) ∧
    ((contends ∧ s.line.tx[p]? = some false) ∨ s.decoder.length.map frameLengthOf = some (p + 1) → data = .high →
      ∃ u t, exec (.bitSample data) s = .next t ∧ sameBesidesLine s u ∧ u.line.state = s.line.state ∧ u.line.role = s.line.role ∧
        u.line.arbitration = s.line.arbitration ∧ u.line.position = some (p + 1) ∧
        u.decoder = s.decoder.sampled (p + 1) (s.line.rx ++ [true]) true ∧ u.abortedTo t .framing none) ∧
    ∀ u : State, u.work.arbLost = true →
      let receiver := ((u.withWork { u.work with arbLost := false }).withLine { u.line with
          state := .receiving, role := .receiver, arbitration := .lost, tx := [], halfPeriod := .none, drivesPace := false,
          drivesData := false }).withDecoder { u.decoder with ownFrame := false }
      (u.send.slot = .inFlight → exec .arbitrationLost u = .next (receiver.withSend { u.send with slot := .empty })) ∧
      ∀ (e : SendEntry) (rest : List SendEntry), u.send.slot ≠ .inFlight → u.send.queue = e :: rest →
        let lost := { e with losses := min 255 (e.losses + 1), inFlight := false }
        (e.retire = false → exec .arbitrationLost u = .next (receiver.withSend { u.send with queue := lost :: rest })) ∧
        (e.retire = true → exec .arbitrationLost u = .next (notify (u.doneWith .purged lost)
          (receiver.withSend { u.send with queue := rest, issued := u.send.issued ++ issuedByEnding [lost] })))

/-- PACE and the slots. A fall begins a bit: a sender pulls PACE and sends its next bit; an answerer that drives pulls PACE, holds
the take slot until its answer is known, drives TAKE and VETO in their slots, and the sender the end bit. The stretch is HOLDING from
the fall that begins the take slot until the station releases PACE. A half-period that runs out releases PACE, unless it is held for
want of the answer, or pulls it, and in the end bit the sender releases DATA. The answer drives DATA, and releases PACE when the
station's own low half-period is over (R91, R92, R96, R100, R101). -/
def Obligations.PaceStretchAndSlots : Prop :=
  ∀ s : State, s.settled = true →
    (s.line.state = .sending →
      ∃ t, exec .paceFall s = .next t ∧ sameBesidesLine s t ∧ t.decoder = s.decoder ∧ t.line.drivesPace = true ∧
        t.line.drivesData = decide (s.line.tx[s.line.position.getD 0]? = some false) ∧ t.line.halfPeriod = .low ∧
        t.line.position = s.line.position ∧ t.line.state = .sending) ∧
    (∀ p n, s.line.state = .answering → s.line.position = some p → s.line.frameLength = some n → p < n →
      ∃ t, exec .paceFall s = .next t ∧ sameBesidesLine s t ∧ t.decoder = s.decoder ∧ t.line.position = some p ∧
        t.line.state = .answering ∧
        (s.line.driving = false → t.line.drivesPace = s.line.drivesPace ∧ t.line.drivesData = s.line.drivesData) ∧
        (s.line.driving = true → t.line.drivesPace = true ∧ t.line.halfPeriod = .low ∧
          (p + 3 = n → t.line.drivesData = (s.line.answered && decide (s.line.ownAnswer = .take)) ∧
            t.line.stretch = .holding) ∧
          (p + 2 = n → t.line.drivesData = decide (s.line.ownAnswer = .veto)) ∧
          (p + 1 = n → t.line.drivesData = decide (s.line.role = .sender)))) ∧
    (s.line.halfPeriod = .low → s.line.stretch = .holding → s.line.answered = false →
      exec .halfPeriodEnd s = .next (s.withLine { s.line with halfPeriod := .none })) ∧
    (s.line.halfPeriod = .low → s.line.stretch ≠ .holding ∨ s.line.answered = true →
      exec .halfPeriodEnd s = .next (s.withLine { s.line with
        halfPeriod := .none, drivesPace := false,
        stretch := if s.line.stretch = .holding then .released else s.line.stretch })) ∧
    (s.line.halfPeriod = .high → s.line.state ≠ .answering ∨ s.line.position ≠ s.line.frameLength →
      exec .halfPeriodEnd s = .next (s.withLine { s.line with halfPeriod := .none, drivesPace := true })) ∧
    (s.line.halfPeriod = .high → s.line.state = .answering → s.line.position = s.line.frameLength →
      exec .halfPeriodEnd s = .next (s.withLine { s.line with
        halfPeriod := .none, drivesData := s.line.drivesData && decide (s.line.role ≠ .sender) })) ∧
    ∀ a, s.decoder.answer = some a → s.line.heldEnd = none → s.line.answered = false →
      ∃ t, exec .answerReady s = .next t ∧ sameBesidesLine s t ∧ t.decoder = s.decoder ∧ t.line.ownAnswer = a ∧
        t.line.answered = true ∧
        (s.line.driving = true → s.line.stretch = .holding →
          let driven := { s.line with ownAnswer := a, answered := true, drivesData := decide (a = .take) }
          (s.line.halfPeriod = .low → t.line = driven) ∧
            (s.line.halfPeriod ≠ .low → t.line = { driven with drivesPace := false, stretch := .released })) ∧
        (s.line.driving = false ∨ s.line.stretch ≠ .holding →
          t.line = { s.line with ownAnswer := a, answered := true })

/-! ### The end of a frame -/

/-- The end condition of a CUE, WITHDRAW or MESSAGE frame, or of one without an owner, at a station that received it and at its sender. At commit a provisional
entry becomes ARMED at its place, with CUE_ARMED, a marked entry is removed, with CUE_REMOVED, and the reserved record becomes the
MESSAGE record; a marked entry that has fired or been dropped meanwhile leaves nothing to remove, and none is reported; at void and
unheard the provisional entry is discarded, the mark cleared and the reservation released; without an owner the outcome changes nothing.
The frame is over, and at a receiver nothing else changes (R17, R32 to R34, R36, R40, R41, R101, R115, R121, R175). That the line record's other fields of
the frame are cleared with it is the model's choice (log entry 14). -/
def Obligations.CueFrameEndsInItsOutcome : Prop :=
  ∀ (s : State) (take veto : Level), s.atEnd take veto → s.line.answered = true → s.station.dupPending = false →
    s.station.leavePending = false →
    s.line.role = .receiver ∨ (s.line.role = .sender ∧ s.line.arbitration = .won) →
    s.decoder.owner ≠ .lineClock →
    let commits := take = .low ∧ veto = .high
    let now := s.clock.lineTime
    ∃ t, exec .endCondition s = .next t ∧ t.line = s.line.seeBothHigh.frameOver .waitIdle ∧ t.decoder = Decoder.reset ∧
      t.station = s.station ∧ t.clock = s.clock ∧ t.points = s.points ∧ t.inputs = s.inputs ∧
      t.peers = s.peers ∧ t.pins = s.pins ∧ t.work = s.work ∧ (s.line.role = .receiver → t.send = s.send) ∧
      let queues (p : Port) (n : Notice) : Prop :=
        (s.line.role = .receiver → t.port = p.push (s.station.enables n.cls) n) ∧
          (s.line.role = .sender → s.port.used + 2 ≤ 16 → s.station.enables n.cls = true → n ∈ t.port.notices)
      let queuesNothing (p : Port) : Prop := (s.line.role = .receiver → t.port = p) ∧
        ∀ n ∈ t.port.notices, n.cls ≠ .sendDone → n ∈ s.port.notices
      (s.decoder.owner = .cueTable → t.port.reservation = s.port.reservation ∧
        (∀ (r : OfferRecord) (e : CueEntry), s.cues.offer = some r → r.effect = .newEntry → s.cues.provisional = some e →
          (commits → t.cues = { armed := insertEntry now e s.cues.armed, provisional := none, offer := none } ∧
            queues s.port (.cueArmed e.key e.fireTime e.scope e.actions.length e.rep e.origin now)) ∧
          (¬commits → t.cues = { s.cues with provisional := none, offer := none } ∧ queuesNothing s.port)) ∧
        (∀ (r : OfferRecord) (before after : List CueEntry) (e : CueEntry), s.cues.offer = some r → r.effect = .marked →
          s.cues.armed = before ++ e :: after → e.withdrawPending = true →
          (∀ x ∈ before ++ after, x.withdrawPending = false ∧ x.key ≠ e.key) →
          (commits → t.cues = { s.cues with armed := before ++ after, offer := none } ∧
            queues s.port (.cueRemoved e.key .withdrawn e.fireTime ((e.rep.map (fun x => x.count)).getD 0) e.origin)) ∧
          (¬commits → t.cues = { s.cues with
            armed := before ++ { e with withdrawPending := false } :: after, offer := none } ∧ queuesNothing s.port)) ∧
        (∀ r : OfferRecord, s.cues.offer = some r → r.effect = .marked → (∀ e ∈ s.cues.armed, e.withdrawPending = false) →
          t.cues = { s.cues with offer := none } ∧ queuesNothing s.port) ∧
        (∀ r : OfferRecord, s.cues.offer = some r → r.effect = .held ∨ r.effect = .none →
          t.cues = { s.cues with offer := none } ∧ queuesNothing s.port) ∧
        (s.cues.offer = none → t.cues = s.cues ∧ queuesNothing s.port)) ∧
      (s.decoder.owner = .none → t.cues = s.cues ∧ t.port.reservation = s.port.reservation ∧ queuesNothing s.port) ∧
      (s.decoder.owner = .hostPort → t.cues = s.cues ∧ t.port.reservation = none ∧
        (s.port.reservation = none → queuesNothing s.port) ∧
        ∀ r : Reservation, s.port.reservation = some r →
          (commits → queues { s.port with reservation := none } (.message r.sender r.scope now s.rxBody)) ∧
          (¬commits → queuesNothing { s.port with reservation := none }))

/-- The slots of a frame this station sent from its queue decide what becomes of the head. ACCEPTED and REFUSED end it; UNHEARD ends
it at its last attempt and returns it to the queue before, unless PURGE marked it. An ended CUE's serial is issued when it was
ACCEPTED or BROKEN once, an accepted WITHDRAW's leaves the issued list; exactly one SEND_DONE reports the ending, and none a return
(R102, R130, R132, R133, R136, R138). What the frame does at its owner here is stated with the frame's end above. That the line
record's other fields of the frame are cleared with it is the model's choice (log entry 14). -/
def Obligations.OwnAttemptEndsOrReturns : Prop :=
  ∀ (s : State) (take veto : Level) (e : SendEntry) (rest : List SendEntry), s.atEnd take veto → s.line.answered = true →
    s.line.role = .sender → s.line.arbitration = .won → s.decoder.owner ≠ .lineClock →
    s.station.dupPending = false → s.station.leavePending = false → s.send.slot ≠ .inFlight → s.send.queue = e :: rest →
    let enters (o : SendOutcome) : Bool := decide (e.kind = .cue) && (decide (o = .accepted) || e.brokenSeen)
    ∃ t, exec .endCondition s = .next t ∧ t.line = s.line.seeBothHigh.frameOver .waitIdle ∧ t.decoder = Decoder.reset ∧
      t.station = s.station ∧ t.clock = s.clock ∧ t.points = s.points ∧ t.inputs = s.inputs ∧ t.peers = s.peers ∧
      let reports := fun (u : State) => u.port.notices.filter (fun n => decide (n.cls = .sendDone))
      let ends (o : SendOutcome) : Prop :=
        t.send = { s.send with
          queue := rest,
          issued :=
            if enters o = true then s.send.issued ++ [⟨e.serial.getD 0, e.scope, lastFireOf e.body⟩]
            else if e.kind = .withdraw ∧ o = .accepted then s.send.issued.filter (fun i => some i.serial != e.serial)
            else s.send.issued } ∧
        (s.port.used + 2 ≤ 16 → reports t = reports s ++
          [.sendDone e.handle e.source e.kind (e.serial.getD 0) o (s.station.setup.sendAttempts - (e.attemptsLeft - 1)) e.losses
            (enters o) s.clock.lineTime])
      (take = .low → veto = .high → ends .accepted) ∧
      (veto = .low → ends .refused) ∧
      (take = .high → veto = .high → e.attemptsLeft ≤ 1 → ends .unheard) ∧
      (take = .high → veto = .high → 2 ≤ e.attemptsLeft → e.retire = true → ends .purged) ∧
      (take = .high → veto = .high → 2 ≤ e.attemptsLeft → e.retire = false →
        t.send = { s.send with queue := { e with attemptsLeft := e.attemptsLeft - 1, inFlight := false } :: rest } ∧
          reports t = reports s)

/-- The end of a BEACON frame. The station's own, committed, makes it REFERENCE with its own ID, the slew and the counts 0 and the window
OFF, and empties the slot; in REFERENCE nothing changes (R73, R86). Another station's, committed, is ignored in FOLLOWING for a
higher ID than the reference's and in REFERENCE for a higher ID than the station's, and else adopted: a step from UNSYNCED or by
more than 16 ticks, a new slew remainder else; a forward step is handed to the readers, an UNSYNCED station in LISTEN enters
ACTIVE, a QUEUED slot empties for a lower ID, and CLOCK reports the cause (R74, R76 to R78, R86, R88, R158). At void and
unheard the beacon record is emptied. The model's own here: the other fields of the frame cleared (log entry 14), stepped yes at
offset 0 from UNSYNCED (17), the offset after slewed ticks read as signed (18), an own ID in REFERENCE ignored (19), and the window
count 0 while the window is OFF (20). -/
def Obligations.BeaconFrameEndsInItsOutcome : Prop :=
  ∀ (s : State) (take veto : Level), s.atEnd take veto → s.line.answered = true → s.decoder.owner = .lineClock → s.station.dupPending = false → s.station.leavePending = false →
    let commits := take = .low ∧ veto = .high
    let base (t : State) : Prop := t.line = s.line.seeBothHigh.frameOver .waitIdle ∧ t.decoder = Decoder.reset ∧
      t.cues = s.cues ∧ t.points = s.points ∧ t.inputs = s.inputs ∧ t.peers = s.peers ∧ t.pins = s.pins
    (s.line.role = .sender → s.line.arbitration = .won → s.decoder.ownFrame = true → s.send.slot = .inFlight →
      ∃ t, exec .endCondition s = .next t ∧ base t ∧ t.station = s.station ∧ t.work = s.work ∧
        t.send = { s.send with slot := .empty } ∧
        (commits → s.clock.state = .reference → t.clock = s.clock ∧ t.port = s.port) ∧
        (commits → s.clock.state ≠ .reference →
          t.clock = { s.clock with state := .reference, refId := some s.station.id, slewRemainder := 0, slewPhase := 0,
                                   missCount := 0, holdoverCount := 0, window := .off, windowCount := 0 } ∧
          t.port = s.port.push (s.station.enables .clock)
            (.clock .ownBeacon s.clock.state .reference (some s.station.id) 0 false .reference s.clock.lineTime)) ∧
        (¬commits → t.clock = { s.clock with beacon := none } ∧ t.port = s.port)) ∧
    (s.line.role = .receiver → s.decoder.ownFrame = false →
      (¬commits → ∃ t, exec .endCondition s = .next t ∧ base t ∧ t.station = s.station ∧ t.work = s.work ∧ t.send = s.send ∧
        t.clock = { s.clock with beacon := none } ∧ t.port = s.port) ∧
      ∀ b : BeaconRecord, commits → s.clock.beacon = some b →
        let offset : Int := (b.carriedTime - b.markTime - BitVec.ofInt 32 s.clock.slewSinceMark).toInt
        let steps : Bool := decide (s.clock.state = .unsynced) || decide (16 < offset.natAbs)
        ∃ t, exec .endCondition s = .next t ∧ base t ∧
          t.send = { s.send with slot :=
            if s.send.slot = .queued ∧ b.sender.toNat < s.station.id.toNat then .empty else s.send.slot } ∧
          ((∃ r, s.clock.state = .following ∧ s.clock.refId = some r ∧ r.toNat < b.sender.toNat) ∨
              (s.clock.state = .reference ∧ s.station.id.toNat ≤ b.sender.toNat) →
            t.clock = { s.clock with beacon := none } ∧ t.station = s.station ∧ t.work = s.work ∧ t.port = s.port) ∧
          (s.clock.state = .unsynced ∨ s.clock.state = .holdover ∨
              (∃ r, s.clock.state = .following ∧ s.clock.refId = some r ∧ b.sender.toNat ≤ r.toNat) ∨
              (s.clock.state = .reference ∧ b.sender.toNat < s.station.id.toNat) →
            t.clock.state = .following ∧ t.clock.refId = some b.sender ∧ t.clock.missCount = 0 ∧ t.clock.holdoverCount = 0 ∧
            t.clock.window = .off ∧ t.clock.beacon = none ∧ t.clock.slewPhase = 0 ∧
            t.clock.beaconPeriod = s.clock.beaconPeriod ∧
            t.station = { s.station with
              state := if s.clock.state = .unsynced ∧ s.station.state = .listen then .active else s.station.state } ∧
            (steps = false → t.clock.lineTime = s.clock.lineTime ∧ t.clock.slewRemainder = offset ∧
              t.clock.nextDue = s.clock.nextDue ∧ t.work = s.work) ∧
            (steps = true → t.clock.lineTime = s.clock.lineTime + BitVec.ofInt 32 offset ∧ t.clock.slewRemainder = 0 ∧
              t.work = { s.work with
                advance := if 0 < offset then some ⟨s.clock.lineTime, offset.toNat⟩ else none } ∧
              (s.clock.nextDue ≠ none → s.clock.beaconPeriod ∈ [256, 512, 1024, 2048] →
                ∃ due, t.clock.nextDue = some due ∧ due.toNat % s.clock.beaconPeriod = 0 ∧
                  1 ≤ distance due t.clock.lineTime ∧ distance due t.clock.lineTime ≤ s.clock.beaconPeriod)) ∧
            ∀ cause, (cause = if s.clock.state = .unsynced ∨ s.clock.state = .holdover then ClockCause.adopted
                else if s.clock.state = .reference then .yielded
                else if s.clock.refId = some b.sender then .stepped else .newReference) →
              (cause = .stepped → steps = false → t.port = s.port) ∧
              (cause ≠ .stepped ∨ steps = true → s.port.used < 16 → s.station.enables .clock = true →
                .clock cause s.clock.state .following (some b.sender) offset steps b.carriedState t.clock.lineTime ∈
                  t.port.notices)))

/-- A LEAVE or a duplicate ID that waited for the end of a frame takes the station to SILENT there: the queue and the offer are gone,
the wires free, and STATION reports a duplicate ID with the frame's kind, before a LEAVE. An end condition that comes before the
answer waits for it, and ANSWER_READY hands it on with the effect that the end condition would have had after it (R100, R159, R160,
R166). That the line record's other fields of the frame are cleared at the end condition, also at one that waits, is the model's
choice (log entries 13 and 14). -/
def Obligations.FrameEndTakesWhatWaited : Prop :=
  ∀ (s : State) (take veto : Level), s.atEnd take veto →
    (s.line.answered = true → s.station.dupPending = true ∨ s.station.leavePending = true →
      ∃ t, exec .endCondition s = .next t ∧ t.decoder = Decoder.reset ∧ t.points = s.points ∧ t.inputs = s.inputs ∧
        t.station = { s.station with state := .silent, dupPending := false, leavePending := false } ∧ t.send.queue = [] ∧
        t.send.offered = .none ∧ t.send.slot ≠ .queued ∧ t.usesLine = false ∧
        (s.decoder.owner ≠ .lineClock → s.port.used + 3 ≤ 16 →
          .station (some s.station.state) .silent (if s.station.dupPending then .duplicateId else .leave)
            (if s.station.dupPending then s.decoder.kind else none) s.station.id s.clock.lineTime ∈ t.port.notices)) ∧
    (s.line.answered = false → exec .endCondition s = .next
      (s.withLine { s.line.seeBothHigh.frameOver .waitIdle with heldEnd := some (take, veto) })) ∧
    ∀ a : Answer, s.line.answered = false → s.line.role = .receiver → s.line.driving = false → s.line.heldEnd = none →
      s.decoder.answer = some a →
      ∃ t, exec .answerReady (s.after .endCondition) = .next t ∧ exec .endCondition (s.after .answerReady) = .next t ∧
        t.line.heldEnd = none ∧ t.line.state = .waitIdle ∧ t.decoder = Decoder.reset

/-! ### Idle, faults and recovery -/

/-- Both wires high for the idle gap lead from WAIT_IDLE to IDLE; a low wire restarts the count; a fall of PACE in IDLE leads back and
the offer lapses; both wires high lead from RECOVER to WAIT_IDLE (R94, R103). -/
def Obligations.IdleGapAndRecovery : Prop :=
  ∀ s : State, s.settled = true →
    let high := { s.line with paceWire := .high, dataWire := .high, paceLow := LowTimer.clear, dataLow := LowTimer.clear }
    (s.line.state = .waitIdle → s.line.heldEnd = none →
      exec .lineIdle s = .next (s.withLine { high with state := .idle, idleCount := 12 })) ∧
    (s.line.state = .waitIdle →
      exec (.idleCountReset .pace) s = .next (s.withLine { s.line with paceWire := .low, idleCount := 0 }) ∧
        exec (.idleCountReset .data) s = .next (s.withLine { s.line with dataWire := .low, idleCount := 0 })) ∧
    (s.line.state = .idle → exec .paceFallInIdle s = .next
      ((s.withLine { s.line with paceWire := .low, state := .waitIdle, idleCount := 0 }).withSend
        { s.send with offered := .none })) ∧
    (s.line.state = .recover → exec .recoverEnd s = .next (s.withLine { high with state := .waitIdle, idleCount := 0 }))

/-- FRAMING, STALL and STUCK_LOW in a frame, and FRAMING shown by a start condition, an end condition before its place or a fall of PACE
after the end bit: the frame is aborted, the line is in RECOVER with the wires free, the owner discards what
it kept of the frame, a sending head is BROKEN and ends, at its last attempt BROKEN and else PURGED if PURGE marked it, or goes back,
a beacon in flight is gone, and LINE_ERROR reports the event as the line stood. A LEAVE or a duplicate ID that waited takes the
station to SILENT there. STUCK_LOW outside a frame leads to RECOVER too, once for each low run, in RECOVER itself as well (R86, R93,
R96, R105 to R109, R122, R132, R133, R136, R138, R159, R166). The model's own: FRAMING in its own row and in those that show it (log
entry 11), an end condition with PACE low is before its place (29), the other fields of the frame cleared (14), STATION after
LINE_ERROR (21), and a rise between two low runs told by STUCK_LOW itself (38). -/
def Obligations.FaultsAbortTheFrame : Prop :=
  ∀ s : State, s.settled = true →
    (∀ (c : Instr) (cause : LineErrorCause) (wire : Option Wire), s.raises c cause wire →
      ∃ t, exec c s = .next t ∧ s.abortedTo t cause wire) ∧
    ∀ (w : Wire) (risen : Bool), s.line.state ≠ .off →
      (risen = false → (s.line.lowTimer w).reported = true → exec (.stuckLow ⟨w, risen⟩) s = .next s) ∧
      (s.line.inFrame = false → risen = true ∨ (s.line.lowTimer w).reported = false →
        ∃ t, exec (.stuckLow ⟨w, risen⟩) s = .next t ∧ t.line.state = .recover ∧ (t.line.lowTimer w).reported = true ∧
          t.send = { s.send with offered := .none } ∧ t.station = s.station ∧ t.clock = s.clock ∧ t.cues = s.cues ∧
          t.points = s.points ∧ t.decoder = s.decoder ∧ t.inputs = s.inputs ∧ t.peers = s.peers ∧
          t.port = s.port.push (s.station.enables .lineError)
            (.lineError .stuckLow (some w) s.line.state none .none none none s.clock.lineTime))
end

