-- ==== Sys2Proof/Laws/State.lean ====
section
/-! SUPPORT. One lemma for each field of State under each update of `Machine/Ops.lean`, so that no proof unfolds a record update;
and updates with the value already there. -/

namespace Sys2Proof.Machine

/-! ### withPins -/

@[simp] theorem State.withPins_pins (s : State) (x : Pins) : (s.withPins x).pins = x := rfl
@[simp] theorem State.withPins_station (s : State) (x : Pins) : (s.withPins x).station = s.station := rfl
@[simp] theorem State.withPins_clock (s : State) (x : Pins) : (s.withPins x).clock = s.clock := rfl
@[simp] theorem State.withPins_cues (s : State) (x : Pins) : (s.withPins x).cues = s.cues := rfl
@[simp] theorem State.withPins_points (s : State) (x : Pins) : (s.withPins x).points = s.points := rfl
@[simp] theorem State.withPins_line (s : State) (x : Pins) : (s.withPins x).line = s.line := rfl
@[simp] theorem State.withPins_decoder (s : State) (x : Pins) : (s.withPins x).decoder = s.decoder := rfl
@[simp] theorem State.withPins_send (s : State) (x : Pins) : (s.withPins x).send = s.send := rfl
@[simp] theorem State.withPins_inputs (s : State) (x : Pins) : (s.withPins x).inputs = s.inputs := rfl
@[simp] theorem State.withPins_peers (s : State) (x : Pins) : (s.withPins x).peers = s.peers := rfl
@[simp] theorem State.withPins_port (s : State) (x : Pins) : (s.withPins x).port = s.port := rfl
@[simp] theorem State.withPins_work (s : State) (x : Pins) : (s.withPins x).work = s.work := rfl
@[simp] theorem State.withPins_order (s : State) (x : Pins) : (s.withPins x).order = s.order := rfl
@[simp] theorem State.withPins_pending (s : State) (x : Pins) : (s.withPins x).pending = s.pending := rfl
@[simp] theorem State.withPins_self (s : State) : s.withPins s.pins = s := rfl
@[simp] theorem State.withPins_twice (s : State) (x y : Pins) : (s.withPins x).withPins y = s.withPins y := rfl

/-! ### withStation -/

@[simp] theorem State.withStation_pins (s : State) (x : Station) : (s.withStation x).pins = s.pins := rfl
@[simp] theorem State.withStation_station (s : State) (x : Station) : (s.withStation x).station = x := rfl
@[simp] theorem State.withStation_clock (s : State) (x : Station) : (s.withStation x).clock = s.clock := rfl
@[simp] theorem State.withStation_cues (s : State) (x : Station) : (s.withStation x).cues = s.cues := rfl
@[simp] theorem State.withStation_points (s : State) (x : Station) : (s.withStation x).points = s.points := rfl
@[simp] theorem State.withStation_line (s : State) (x : Station) : (s.withStation x).line = s.line := rfl
@[simp] theorem State.withStation_decoder (s : State) (x : Station) : (s.withStation x).decoder = s.decoder := rfl
@[simp] theorem State.withStation_send (s : State) (x : Station) : (s.withStation x).send = s.send := rfl
@[simp] theorem State.withStation_inputs (s : State) (x : Station) : (s.withStation x).inputs = s.inputs := rfl
@[simp] theorem State.withStation_peers (s : State) (x : Station) : (s.withStation x).peers = s.peers := rfl
@[simp] theorem State.withStation_port (s : State) (x : Station) : (s.withStation x).port = s.port := rfl
@[simp] theorem State.withStation_work (s : State) (x : Station) : (s.withStation x).work = s.work := rfl
@[simp] theorem State.withStation_order (s : State) (x : Station) : (s.withStation x).order = s.order := rfl
@[simp] theorem State.withStation_pending (s : State) (x : Station) : (s.withStation x).pending = s.pending := rfl
@[simp] theorem State.withStation_self (s : State) : s.withStation s.station = s := rfl
@[simp] theorem State.withStation_twice (s : State) (x y : Station) : (s.withStation x).withStation y = s.withStation y := rfl

/-! ### withClock -/

@[simp] theorem State.withClock_pins (s : State) (x : Clock) : (s.withClock x).pins = s.pins := rfl
@[simp] theorem State.withClock_station (s : State) (x : Clock) : (s.withClock x).station = s.station := rfl
@[simp] theorem State.withClock_clock (s : State) (x : Clock) : (s.withClock x).clock = x := rfl
@[simp] theorem State.withClock_cues (s : State) (x : Clock) : (s.withClock x).cues = s.cues := rfl
@[simp] theorem State.withClock_points (s : State) (x : Clock) : (s.withClock x).points = s.points := rfl
@[simp] theorem State.withClock_line (s : State) (x : Clock) : (s.withClock x).line = s.line := rfl
@[simp] theorem State.withClock_decoder (s : State) (x : Clock) : (s.withClock x).decoder = s.decoder := rfl
@[simp] theorem State.withClock_send (s : State) (x : Clock) : (s.withClock x).send = s.send := rfl
@[simp] theorem State.withClock_inputs (s : State) (x : Clock) : (s.withClock x).inputs = s.inputs := rfl
@[simp] theorem State.withClock_peers (s : State) (x : Clock) : (s.withClock x).peers = s.peers := rfl
@[simp] theorem State.withClock_port (s : State) (x : Clock) : (s.withClock x).port = s.port := rfl
@[simp] theorem State.withClock_work (s : State) (x : Clock) : (s.withClock x).work = s.work := rfl
@[simp] theorem State.withClock_order (s : State) (x : Clock) : (s.withClock x).order = s.order := rfl
@[simp] theorem State.withClock_pending (s : State) (x : Clock) : (s.withClock x).pending = s.pending := rfl
@[simp] theorem State.withClock_self (s : State) : s.withClock s.clock = s := rfl
@[simp] theorem State.withClock_twice (s : State) (x y : Clock) : (s.withClock x).withClock y = s.withClock y := rfl

/-! ### withCues -/

@[simp] theorem State.withCues_pins (s : State) (x : CueTable) : (s.withCues x).pins = s.pins := rfl
@[simp] theorem State.withCues_station (s : State) (x : CueTable) : (s.withCues x).station = s.station := rfl
@[simp] theorem State.withCues_clock (s : State) (x : CueTable) : (s.withCues x).clock = s.clock := rfl
@[simp] theorem State.withCues_cues (s : State) (x : CueTable) : (s.withCues x).cues = x := rfl
@[simp] theorem State.withCues_points (s : State) (x : CueTable) : (s.withCues x).points = s.points := rfl
@[simp] theorem State.withCues_line (s : State) (x : CueTable) : (s.withCues x).line = s.line := rfl
@[simp] theorem State.withCues_decoder (s : State) (x : CueTable) : (s.withCues x).decoder = s.decoder := rfl
@[simp] theorem State.withCues_send (s : State) (x : CueTable) : (s.withCues x).send = s.send := rfl
@[simp] theorem State.withCues_inputs (s : State) (x : CueTable) : (s.withCues x).inputs = s.inputs := rfl
@[simp] theorem State.withCues_peers (s : State) (x : CueTable) : (s.withCues x).peers = s.peers := rfl
@[simp] theorem State.withCues_port (s : State) (x : CueTable) : (s.withCues x).port = s.port := rfl
@[simp] theorem State.withCues_work (s : State) (x : CueTable) : (s.withCues x).work = s.work := rfl
@[simp] theorem State.withCues_order (s : State) (x : CueTable) : (s.withCues x).order = s.order := rfl
@[simp] theorem State.withCues_pending (s : State) (x : CueTable) : (s.withCues x).pending = s.pending := rfl
@[simp] theorem State.withCues_self (s : State) : s.withCues s.cues = s := rfl
@[simp] theorem State.withCues_twice (s : State) (x y : CueTable) : (s.withCues x).withCues y = s.withCues y := rfl

/-! ### withPoints -/

@[simp] theorem State.withPoints_pins (s : State) (x : Points) : (s.withPoints x).pins = s.pins := rfl
@[simp] theorem State.withPoints_station (s : State) (x : Points) : (s.withPoints x).station = s.station := rfl
@[simp] theorem State.withPoints_clock (s : State) (x : Points) : (s.withPoints x).clock = s.clock := rfl
@[simp] theorem State.withPoints_cues (s : State) (x : Points) : (s.withPoints x).cues = s.cues := rfl
@[simp] theorem State.withPoints_points (s : State) (x : Points) : (s.withPoints x).points = x := rfl
@[simp] theorem State.withPoints_line (s : State) (x : Points) : (s.withPoints x).line = s.line := rfl
@[simp] theorem State.withPoints_decoder (s : State) (x : Points) : (s.withPoints x).decoder = s.decoder := rfl
@[simp] theorem State.withPoints_send (s : State) (x : Points) : (s.withPoints x).send = s.send := rfl
@[simp] theorem State.withPoints_inputs (s : State) (x : Points) : (s.withPoints x).inputs = s.inputs := rfl
@[simp] theorem State.withPoints_peers (s : State) (x : Points) : (s.withPoints x).peers = s.peers := rfl
@[simp] theorem State.withPoints_port (s : State) (x : Points) : (s.withPoints x).port = s.port := rfl
@[simp] theorem State.withPoints_work (s : State) (x : Points) : (s.withPoints x).work = s.work := rfl
@[simp] theorem State.withPoints_order (s : State) (x : Points) : (s.withPoints x).order = s.order := rfl
@[simp] theorem State.withPoints_pending (s : State) (x : Points) : (s.withPoints x).pending = s.pending := rfl
@[simp] theorem State.withPoints_self (s : State) : s.withPoints s.points = s := rfl
@[simp] theorem State.withPoints_twice (s : State) (x y : Points) : (s.withPoints x).withPoints y = s.withPoints y := rfl

/-! ### withLine -/

@[simp] theorem State.withLine_pins (s : State) (x : Line) : (s.withLine x).pins = s.pins := rfl
@[simp] theorem State.withLine_station (s : State) (x : Line) : (s.withLine x).station = s.station := rfl
@[simp] theorem State.withLine_clock (s : State) (x : Line) : (s.withLine x).clock = s.clock := rfl
@[simp] theorem State.withLine_cues (s : State) (x : Line) : (s.withLine x).cues = s.cues := rfl
@[simp] theorem State.withLine_points (s : State) (x : Line) : (s.withLine x).points = s.points := rfl
@[simp] theorem State.withLine_line (s : State) (x : Line) : (s.withLine x).line = x := rfl
@[simp] theorem State.withLine_decoder (s : State) (x : Line) : (s.withLine x).decoder = s.decoder := rfl
@[simp] theorem State.withLine_send (s : State) (x : Line) : (s.withLine x).send = s.send := rfl
@[simp] theorem State.withLine_inputs (s : State) (x : Line) : (s.withLine x).inputs = s.inputs := rfl
@[simp] theorem State.withLine_peers (s : State) (x : Line) : (s.withLine x).peers = s.peers := rfl
@[simp] theorem State.withLine_port (s : State) (x : Line) : (s.withLine x).port = s.port := rfl
@[simp] theorem State.withLine_work (s : State) (x : Line) : (s.withLine x).work = s.work := rfl
@[simp] theorem State.withLine_order (s : State) (x : Line) : (s.withLine x).order = s.order := rfl
@[simp] theorem State.withLine_pending (s : State) (x : Line) : (s.withLine x).pending = s.pending := rfl
@[simp] theorem State.withLine_self (s : State) : s.withLine s.line = s := rfl
@[simp] theorem State.withLine_twice (s : State) (x y : Line) : (s.withLine x).withLine y = s.withLine y := rfl

/-! ### withDecoder -/

@[simp] theorem State.withDecoder_pins (s : State) (x : Decoder) : (s.withDecoder x).pins = s.pins := rfl
@[simp] theorem State.withDecoder_station (s : State) (x : Decoder) : (s.withDecoder x).station = s.station := rfl
@[simp] theorem State.withDecoder_clock (s : State) (x : Decoder) : (s.withDecoder x).clock = s.clock := rfl
@[simp] theorem State.withDecoder_cues (s : State) (x : Decoder) : (s.withDecoder x).cues = s.cues := rfl
@[simp] theorem State.withDecoder_points (s : State) (x : Decoder) : (s.withDecoder x).points = s.points := rfl
@[simp] theorem State.withDecoder_line (s : State) (x : Decoder) : (s.withDecoder x).line = s.line := rfl
@[simp] theorem State.withDecoder_decoder (s : State) (x : Decoder) : (s.withDecoder x).decoder = x := rfl
@[simp] theorem State.withDecoder_send (s : State) (x : Decoder) : (s.withDecoder x).send = s.send := rfl
@[simp] theorem State.withDecoder_inputs (s : State) (x : Decoder) : (s.withDecoder x).inputs = s.inputs := rfl
@[simp] theorem State.withDecoder_peers (s : State) (x : Decoder) : (s.withDecoder x).peers = s.peers := rfl
@[simp] theorem State.withDecoder_port (s : State) (x : Decoder) : (s.withDecoder x).port = s.port := rfl
@[simp] theorem State.withDecoder_work (s : State) (x : Decoder) : (s.withDecoder x).work = s.work := rfl
@[simp] theorem State.withDecoder_order (s : State) (x : Decoder) : (s.withDecoder x).order = s.order := rfl
@[simp] theorem State.withDecoder_pending (s : State) (x : Decoder) : (s.withDecoder x).pending = s.pending := rfl
@[simp] theorem State.withDecoder_self (s : State) : s.withDecoder s.decoder = s := rfl
@[simp] theorem State.withDecoder_twice (s : State) (x y : Decoder) : (s.withDecoder x).withDecoder y = s.withDecoder y := rfl

/-! ### withSend -/

@[simp] theorem State.withSend_pins (s : State) (x : SendUnit) : (s.withSend x).pins = s.pins := rfl
@[simp] theorem State.withSend_station (s : State) (x : SendUnit) : (s.withSend x).station = s.station := rfl
@[simp] theorem State.withSend_clock (s : State) (x : SendUnit) : (s.withSend x).clock = s.clock := rfl
@[simp] theorem State.withSend_cues (s : State) (x : SendUnit) : (s.withSend x).cues = s.cues := rfl
@[simp] theorem State.withSend_points (s : State) (x : SendUnit) : (s.withSend x).points = s.points := rfl
@[simp] theorem State.withSend_line (s : State) (x : SendUnit) : (s.withSend x).line = s.line := rfl
@[simp] theorem State.withSend_decoder (s : State) (x : SendUnit) : (s.withSend x).decoder = s.decoder := rfl
@[simp] theorem State.withSend_send (s : State) (x : SendUnit) : (s.withSend x).send = x := rfl
@[simp] theorem State.withSend_inputs (s : State) (x : SendUnit) : (s.withSend x).inputs = s.inputs := rfl
@[simp] theorem State.withSend_peers (s : State) (x : SendUnit) : (s.withSend x).peers = s.peers := rfl
@[simp] theorem State.withSend_port (s : State) (x : SendUnit) : (s.withSend x).port = s.port := rfl
@[simp] theorem State.withSend_work (s : State) (x : SendUnit) : (s.withSend x).work = s.work := rfl
@[simp] theorem State.withSend_order (s : State) (x : SendUnit) : (s.withSend x).order = s.order := rfl
@[simp] theorem State.withSend_pending (s : State) (x : SendUnit) : (s.withSend x).pending = s.pending := rfl
@[simp] theorem State.withSend_self (s : State) : s.withSend s.send = s := rfl
@[simp] theorem State.withSend_twice (s : State) (x y : SendUnit) : (s.withSend x).withSend y = s.withSend y := rfl

/-! ### withInputs -/

@[simp] theorem State.withInputs_pins (s : State) (x : Four TriggerInput) : (s.withInputs x).pins = s.pins := rfl
@[simp] theorem State.withInputs_station (s : State) (x : Four TriggerInput) : (s.withInputs x).station = s.station := rfl
@[simp] theorem State.withInputs_clock (s : State) (x : Four TriggerInput) : (s.withInputs x).clock = s.clock := rfl
@[simp] theorem State.withInputs_cues (s : State) (x : Four TriggerInput) : (s.withInputs x).cues = s.cues := rfl
@[simp] theorem State.withInputs_points (s : State) (x : Four TriggerInput) : (s.withInputs x).points = s.points := rfl
@[simp] theorem State.withInputs_line (s : State) (x : Four TriggerInput) : (s.withInputs x).line = s.line := rfl
@[simp] theorem State.withInputs_decoder (s : State) (x : Four TriggerInput) : (s.withInputs x).decoder = s.decoder := rfl
@[simp] theorem State.withInputs_send (s : State) (x : Four TriggerInput) : (s.withInputs x).send = s.send := rfl
@[simp] theorem State.withInputs_inputs (s : State) (x : Four TriggerInput) : (s.withInputs x).inputs = x := rfl
@[simp] theorem State.withInputs_peers (s : State) (x : Four TriggerInput) : (s.withInputs x).peers = s.peers := rfl
@[simp] theorem State.withInputs_port (s : State) (x : Four TriggerInput) : (s.withInputs x).port = s.port := rfl
@[simp] theorem State.withInputs_work (s : State) (x : Four TriggerInput) : (s.withInputs x).work = s.work := rfl
@[simp] theorem State.withInputs_order (s : State) (x : Four TriggerInput) : (s.withInputs x).order = s.order := rfl
@[simp] theorem State.withInputs_pending (s : State) (x : Four TriggerInput) : (s.withInputs x).pending = s.pending := rfl
@[simp] theorem State.withInputs_self (s : State) : s.withInputs s.inputs = s := rfl
@[simp] theorem State.withInputs_twice (s : State) (x y : Four TriggerInput) : (s.withInputs x).withInputs y = s.withInputs y := rfl

/-! ### withPeers -/

@[simp] theorem State.withPeers_pins (s : State) (x : List PeerRecord) : (s.withPeers x).pins = s.pins := rfl
@[simp] theorem State.withPeers_station (s : State) (x : List PeerRecord) : (s.withPeers x).station = s.station := rfl
@[simp] theorem State.withPeers_clock (s : State) (x : List PeerRecord) : (s.withPeers x).clock = s.clock := rfl
@[simp] theorem State.withPeers_cues (s : State) (x : List PeerRecord) : (s.withPeers x).cues = s.cues := rfl
@[simp] theorem State.withPeers_points (s : State) (x : List PeerRecord) : (s.withPeers x).points = s.points := rfl
@[simp] theorem State.withPeers_line (s : State) (x : List PeerRecord) : (s.withPeers x).line = s.line := rfl
@[simp] theorem State.withPeers_decoder (s : State) (x : List PeerRecord) : (s.withPeers x).decoder = s.decoder := rfl
@[simp] theorem State.withPeers_send (s : State) (x : List PeerRecord) : (s.withPeers x).send = s.send := rfl
@[simp] theorem State.withPeers_inputs (s : State) (x : List PeerRecord) : (s.withPeers x).inputs = s.inputs := rfl
@[simp] theorem State.withPeers_peers (s : State) (x : List PeerRecord) : (s.withPeers x).peers = x := rfl
@[simp] theorem State.withPeers_port (s : State) (x : List PeerRecord) : (s.withPeers x).port = s.port := rfl
@[simp] theorem State.withPeers_work (s : State) (x : List PeerRecord) : (s.withPeers x).work = s.work := rfl
@[simp] theorem State.withPeers_order (s : State) (x : List PeerRecord) : (s.withPeers x).order = s.order := rfl
@[simp] theorem State.withPeers_pending (s : State) (x : List PeerRecord) : (s.withPeers x).pending = s.pending := rfl
@[simp] theorem State.withPeers_self (s : State) : s.withPeers s.peers = s := rfl
@[simp] theorem State.withPeers_twice (s : State) (x y : List PeerRecord) : (s.withPeers x).withPeers y = s.withPeers y := rfl

/-! ### withPort -/

@[simp] theorem State.withPort_pins (s : State) (x : Port) : (s.withPort x).pins = s.pins := rfl
@[simp] theorem State.withPort_station (s : State) (x : Port) : (s.withPort x).station = s.station := rfl
@[simp] theorem State.withPort_clock (s : State) (x : Port) : (s.withPort x).clock = s.clock := rfl
@[simp] theorem State.withPort_cues (s : State) (x : Port) : (s.withPort x).cues = s.cues := rfl
@[simp] theorem State.withPort_points (s : State) (x : Port) : (s.withPort x).points = s.points := rfl
@[simp] theorem State.withPort_line (s : State) (x : Port) : (s.withPort x).line = s.line := rfl
@[simp] theorem State.withPort_decoder (s : State) (x : Port) : (s.withPort x).decoder = s.decoder := rfl
@[simp] theorem State.withPort_send (s : State) (x : Port) : (s.withPort x).send = s.send := rfl
@[simp] theorem State.withPort_inputs (s : State) (x : Port) : (s.withPort x).inputs = s.inputs := rfl
@[simp] theorem State.withPort_peers (s : State) (x : Port) : (s.withPort x).peers = s.peers := rfl
@[simp] theorem State.withPort_port (s : State) (x : Port) : (s.withPort x).port = x := rfl
@[simp] theorem State.withPort_work (s : State) (x : Port) : (s.withPort x).work = s.work := rfl
@[simp] theorem State.withPort_order (s : State) (x : Port) : (s.withPort x).order = s.order := rfl
@[simp] theorem State.withPort_pending (s : State) (x : Port) : (s.withPort x).pending = s.pending := rfl
@[simp] theorem State.withPort_self (s : State) : s.withPort s.port = s := rfl
@[simp] theorem State.withPort_twice (s : State) (x y : Port) : (s.withPort x).withPort y = s.withPort y := rfl

/-! ### withWork -/

@[simp] theorem State.withWork_pins (s : State) (x : Work) : (s.withWork x).pins = s.pins := rfl
@[simp] theorem State.withWork_station (s : State) (x : Work) : (s.withWork x).station = s.station := rfl
@[simp] theorem State.withWork_clock (s : State) (x : Work) : (s.withWork x).clock = s.clock := rfl
@[simp] theorem State.withWork_cues (s : State) (x : Work) : (s.withWork x).cues = s.cues := rfl
@[simp] theorem State.withWork_points (s : State) (x : Work) : (s.withWork x).points = s.points := rfl
@[simp] theorem State.withWork_line (s : State) (x : Work) : (s.withWork x).line = s.line := rfl
@[simp] theorem State.withWork_decoder (s : State) (x : Work) : (s.withWork x).decoder = s.decoder := rfl
@[simp] theorem State.withWork_send (s : State) (x : Work) : (s.withWork x).send = s.send := rfl
@[simp] theorem State.withWork_inputs (s : State) (x : Work) : (s.withWork x).inputs = s.inputs := rfl
@[simp] theorem State.withWork_peers (s : State) (x : Work) : (s.withWork x).peers = s.peers := rfl
@[simp] theorem State.withWork_port (s : State) (x : Work) : (s.withWork x).port = s.port := rfl
@[simp] theorem State.withWork_work (s : State) (x : Work) : (s.withWork x).work = x := rfl
@[simp] theorem State.withWork_order (s : State) (x : Work) : (s.withWork x).order = s.order := rfl
@[simp] theorem State.withWork_pending (s : State) (x : Work) : (s.withWork x).pending = s.pending := rfl
@[simp] theorem State.withWork_self (s : State) : s.withWork s.work = s := rfl
@[simp] theorem State.withWork_twice (s : State) (x y : Work) : (s.withWork x).withWork y = s.withWork y := rfl

/-! ### withOrder -/

@[simp] theorem State.withOrder_pins (s : State) (x : Nat) : (s.withOrder x).pins = s.pins := rfl
@[simp] theorem State.withOrder_station (s : State) (x : Nat) : (s.withOrder x).station = s.station := rfl
@[simp] theorem State.withOrder_clock (s : State) (x : Nat) : (s.withOrder x).clock = s.clock := rfl
@[simp] theorem State.withOrder_cues (s : State) (x : Nat) : (s.withOrder x).cues = s.cues := rfl
@[simp] theorem State.withOrder_points (s : State) (x : Nat) : (s.withOrder x).points = s.points := rfl
@[simp] theorem State.withOrder_line (s : State) (x : Nat) : (s.withOrder x).line = s.line := rfl
@[simp] theorem State.withOrder_decoder (s : State) (x : Nat) : (s.withOrder x).decoder = s.decoder := rfl
@[simp] theorem State.withOrder_send (s : State) (x : Nat) : (s.withOrder x).send = s.send := rfl
@[simp] theorem State.withOrder_inputs (s : State) (x : Nat) : (s.withOrder x).inputs = s.inputs := rfl
@[simp] theorem State.withOrder_peers (s : State) (x : Nat) : (s.withOrder x).peers = s.peers := rfl
@[simp] theorem State.withOrder_port (s : State) (x : Nat) : (s.withOrder x).port = s.port := rfl
@[simp] theorem State.withOrder_work (s : State) (x : Nat) : (s.withOrder x).work = s.work := rfl
@[simp] theorem State.withOrder_order (s : State) (x : Nat) : (s.withOrder x).order = x := rfl
@[simp] theorem State.withOrder_pending (s : State) (x : Nat) : (s.withOrder x).pending = s.pending := rfl
@[simp] theorem State.withOrder_self (s : State) : s.withOrder s.order = s := rfl
@[simp] theorem State.withOrder_twice (s : State) (x y : Nat) : (s.withOrder x).withOrder y = s.withOrder y := rfl

/-! ### withPending -/

@[simp] theorem State.withPending_pins (s : State) (x : List Instr) : (s.withPending x).pins = s.pins := rfl
@[simp] theorem State.withPending_station (s : State) (x : List Instr) : (s.withPending x).station = s.station := rfl
@[simp] theorem State.withPending_clock (s : State) (x : List Instr) : (s.withPending x).clock = s.clock := rfl
@[simp] theorem State.withPending_cues (s : State) (x : List Instr) : (s.withPending x).cues = s.cues := rfl
@[simp] theorem State.withPending_points (s : State) (x : List Instr) : (s.withPending x).points = s.points := rfl
@[simp] theorem State.withPending_line (s : State) (x : List Instr) : (s.withPending x).line = s.line := rfl
@[simp] theorem State.withPending_decoder (s : State) (x : List Instr) : (s.withPending x).decoder = s.decoder := rfl
@[simp] theorem State.withPending_send (s : State) (x : List Instr) : (s.withPending x).send = s.send := rfl
@[simp] theorem State.withPending_inputs (s : State) (x : List Instr) : (s.withPending x).inputs = s.inputs := rfl
@[simp] theorem State.withPending_peers (s : State) (x : List Instr) : (s.withPending x).peers = s.peers := rfl
@[simp] theorem State.withPending_port (s : State) (x : List Instr) : (s.withPending x).port = s.port := rfl
@[simp] theorem State.withPending_work (s : State) (x : List Instr) : (s.withPending x).work = s.work := rfl
@[simp] theorem State.withPending_order (s : State) (x : List Instr) : (s.withPending x).order = s.order := rfl
@[simp] theorem State.withPending_pending (s : State) (x : List Instr) : (s.withPending x).pending = x := rfl
@[simp] theorem State.withPending_self (s : State) : s.withPending s.pending = s := rfl
@[simp] theorem State.withPending_twice (s : State) (x y : List Instr) : (s.withPending x).withPending y = s.withPending y := rfl

end Sys2Proof.Machine
end

