-- ==== Sys2Proof/Laws/Notices.lean ====
section
/-! SUPPORT. What queuing a notice can do (R171 to R173), and what taking two blocks' turns in either order can give. -/

namespace Sys2Proof.Machine

/-! ### One notice -/

@[simp] theorem Port.push_phase (p : Port) (b : Bool) (n : Notice) : (p.push b n).phase = p.phase := by
  unfold Port.push; split <;> [(split <;> rfl); rfl]

@[simp] theorem Port.push_command (p : Port) (b : Bool) (n : Notice) : (p.push b n).command = p.command := by
  unfold Port.push; split <;> [(split <;> rfl); rfl]

@[simp] theorem Port.push_argsExpected (p : Port) (b : Bool) (n : Notice) : (p.push b n).argsExpected = p.argsExpected := by
  unfold Port.push; split <;> [(split <;> rfl); rfl]

@[simp] theorem Port.push_args (p : Port) (b : Bool) (n : Notice) : (p.push b n).args = p.args := by
  unfold Port.push; split <;> [(split <;> rfl); rfl]

@[simp] theorem Port.push_shifted (p : Port) (b : Bool) (n : Notice) : (p.push b n).shifted = p.shifted := by
  unfold Port.push; split <;> [(split <;> rfl); rfl]

@[simp] theorem Port.push_response (p : Port) (b : Bool) (n : Notice) : (p.push b n).response = p.response := by
  unfold Port.push; split <;> [(split <;> rfl); rfl]

@[simp] theorem Port.push_reservation (p : Port) (b : Bool) (n : Notice) : (p.push b n).reservation = p.reservation := by
  unfold Port.push; split <;> [(split <;> rfl); rfl]

/-- R172, step 1: the class is marked whatever becomes of the notice. -/
@[simp] theorem Port.push_seen (p : Port) (b : Bool) (n : Notice) :
    (p.push b n).seen = p.seen ||| (1#16 <<< n.cls.index) := by
  unfold Port.push; split <;> [(split <;> rfl); rfl]

/-- R172, steps 2 to 4: discarded, entered at the tail, or dropped and counted. -/
theorem Port.push_cases (p : Port) (b : Bool) (n : Notice) :
    (b = false ∧ (p.push b n).notices = p.notices ∧ (p.push b n).dropped = p.dropped) ∨
    (b = true ∧ p.used < Config.noticeCapacity ∧ (p.push b n).notices = p.notices ++ [n] ∧ (p.push b n).dropped = p.dropped) ∨
    (b = true ∧ ¬p.used < Config.noticeCapacity ∧ (p.push b n).notices = p.notices ∧
      (p.push b n).dropped = min Config.droppedMax (p.dropped + 1)) := by
  cases b
  · exact .inl ⟨rfl, rfl, rfl⟩
  · by_cases h : p.used < Config.noticeCapacity
    · refine .inr (.inl ⟨rfl, h, ?_⟩)
      have h' : (p.mark n.cls.index).hasFree = true := decide_eq_true h
      rw [Port.push, if_pos rfl, if_pos h']
      exact ⟨rfl, rfl⟩
    · refine .inr (.inr ⟨rfl, h, ?_⟩)
      have h' : ¬(p.mark n.cls.index).hasFree = true := by
        rw [show (p.mark n.cls.index).hasFree = false from decide_eq_false h]; decide
      rw [Port.push, if_pos rfl, if_neg h']
      exact ⟨rfl, rfl⟩

/-- A notice touches the host port alone. -/
theorem notify_eq (n : Notice) (s : State) : notify n s = s.withPort (s.port.push (s.station.enables n.cls) n) := rfl

@[simp] theorem notify_port (n : Notice) (s : State) : (notify n s).port = s.port.push (s.station.enables n.cls) n := rfl
@[simp] theorem notify_pins (n : Notice) (s : State) : (notify n s).pins = s.pins := rfl
@[simp] theorem notify_station (n : Notice) (s : State) : (notify n s).station = s.station := rfl
@[simp] theorem notify_clock (n : Notice) (s : State) : (notify n s).clock = s.clock := rfl
@[simp] theorem notify_cues (n : Notice) (s : State) : (notify n s).cues = s.cues := rfl
@[simp] theorem notify_points (n : Notice) (s : State) : (notify n s).points = s.points := rfl
@[simp] theorem notify_line (n : Notice) (s : State) : (notify n s).line = s.line := rfl
@[simp] theorem notify_decoder (n : Notice) (s : State) : (notify n s).decoder = s.decoder := rfl
@[simp] theorem notify_send (n : Notice) (s : State) : (notify n s).send = s.send := rfl
@[simp] theorem notify_inputs (n : Notice) (s : State) : (notify n s).inputs = s.inputs := rfl
@[simp] theorem notify_peers (n : Notice) (s : State) : (notify n s).peers = s.peers := rfl
@[simp] theorem notify_work (n : Notice) (s : State) : (notify n s).work = s.work := rfl
@[simp] theorem notify_order (n : Notice) (s : State) : (notify n s).order = s.order := rfl
@[simp] theorem notify_pending (n : Notice) (s : State) : (notify n s).pending = s.pending := rfl

/-- What holds before a run of notices, and is kept by each, holds after it. -/
theorem notifyAll_keeps {P : State → Prop} (hn : ∀ n s, P s → P (notify n s)) (ns : List Notice) (s : State) (h : P s) :
    P (notifyAll ns s) := by
  induction ns generalizing s with
  | nil => exact h
  | cons n ns ih => exact ih (notify n s) (hn n s h)

@[simp] theorem notifyAll_nil (s : State) : notifyAll [] s = s := rfl
@[simp] theorem notifyAll_cons (n : Notice) (ns : List Notice) (s : State) :
    notifyAll (n :: ns) s = notifyAll ns (notify n s) := rfl

/-- Notices touch the host port alone. -/
theorem notifyAll_port (ns : List Notice) (s : State) : ∃ p, notifyAll ns s = s.withPort p := by
  induction ns generalizing s with
  | nil => exact ⟨s.port, rfl⟩
  | cons n ns ih =>
    obtain ⟨p, hp⟩ := ih (notify n s)
    exact ⟨p, by rw [notifyAll_cons, hp]; rfl⟩

/-! ### Two blocks at one instant -/

/-- Either order gives one of the two orders, and counts a use of the free value when it read it. -/
theorem eitherOrder_cases (f g : State → State) (s : State) :
    eitherOrder f g s = g (f s) ∨ eitherOrder f g s = f (g (s.withOrder (s.order + 1))) ∨
      eitherOrder f g s = g (f (s.withOrder (s.order + 1))) := by
  unfold eitherOrder
  split
  · exact .inl rfl
  · split
    · exact .inr (.inl rfl)
    · exact .inr (.inr rfl)

/-- Where both orders show the host the same, no free value is read. -/
theorem eitherOrder_agree (f g : State → State) (s : State) (h : (g (f s)).port = (f (g s)).port) :
    eitherOrder f g s = g (f s) := if_pos h

/-- What each block keeps, and the count of free values does not disturb, both orders keep. -/
theorem eitherOrder_keeps {P : State → Prop} {f g : State → State} (hf : ∀ s, P s → P (f s)) (hg : ∀ s, P s → P (g s))
    (ho : ∀ s n, P s → P (s.withOrder n)) (s : State) (h : P s) : P (eitherOrder f g s) := by
  rcases eitherOrder_cases f g s with e | e | e <;> rw [e]
  · exact hg _ (hf _ h)
  · exact hf _ (hg _ (ho _ _ h))
  · exact hg _ (hf _ (ho _ _ h))

end Sys2Proof.Machine
end

