-- ==== Sys2Proof/Laws/Operations.lean ====
section
/-! SUPPORT. For each shared operation, once, what it can do: finishing an instant, taking a host command, ending send entries, an
attempt's outcome, entering a station state, inserting a table entry, applying actions. -/

namespace Sys2Proof.Machine

/-! ### Finishing an instant -/

/-- With nothing in hand, finishing what is in hand does nothing. -/
theorem finishWork_of_none (s : State) (h : s.work = Work.none) : finishWork s = s := if_pos h

theorem offerBeacon_of_not_due (s : State) (h : s.beaconOfferDue = false) : offerBeacon s = s := by
  unfold offerBeacon; rw [h]; rfl

theorem offerHead_of_not_due (s : State) (h : s.headOfferDue = false) : offerHead s = s := by
  unfold offerHead; rw [h]; rfl

/-- A settled state is its own finished instant. -/
theorem settle_of_settled (s : State) (h : s.settled = true) : settle s = s := by
  simp only [State.settled, Bool.and_eq_true, decide_eq_true_eq, Bool.not_eq_true'] at h
  rw [settle, finishWork_of_none s h.1.1, makeOffers, offerBeacon_of_not_due s h.2, offerHead_of_not_due s h.1.2]

theorem State.Ready.settle_eq {s : State} (h : s.Ready) : settle s = s := settle_of_settled s h.1

theorem State.settled_work {s : State} (h : s.settled = true) : s.work = Work.none := by
  simp only [State.settled, Bool.and_eq_true, decide_eq_true_eq, Bool.not_eq_true'] at h
  exact h.1.1

/-! ### Taking a host command -/

/-- A port that takes a command answers it with what the owner did. -/
theorem hostCommand_of_ready (name : CommandName) (run : State → Response × State) (s : State) (h : s.Ready) :
    hostCommand name run s = answerCommand (some name) (run s).1 (run s).2 := by
  unfold hostCommand; simp only [h.settle_eq, h.2, if_true]

/-- A port that takes a command has collected nothing of it yet. -/
theorem State.Ready.collected_eq {s : State} (h : s.Ready) (name : CommandName) : s.collected name = some [] := if_pos h.2

/-- No byte after the command: its response stands as it was fixed. -/
@[simp] theorem trailingBytes_zero (name : Option CommandName) (r : Response) (s : State) :
    trailingBytes 0 (answerCommand name r s) = answerCommand name r s := by
  by_cases hn : s.pins.ncs = .low <;>
    simp [trailingBytes, answerCommand, Port.clocked, State.withPort, Response.bytes, hn]

/-- Bytes after the command touch the host port alone. -/
theorem trailingBytes_eq (n : Nat) (s : State) : ∃ p, trailingBytes n s = s.withPort p := ⟨_, rfl⟩

/-- In a transaction that NCS opened, bytes after the command are clocked as any RESULTS bytes are. -/
theorem trailingBytes_of_low (n : Nat) (name : Option CommandName) (r : Response) (s : State) (h : s.pins.ncs = .low) :
    trailingBytes n (answerCommand name r s) =
      (answerCommand name r s).withPort ((answerCommand name r s).port.clocked n) := by
  simp [trailingBytes, answerCommand, State.withPort, h]

/-- A command with the argument bytes it calls for is taken, and the bytes after them are RESULTS bytes. -/
theorem shapedCommand_of_prefix (name : CommandName) (shape : List Byte → Shape) (run : List Byte → State → Response × State)
    (args xs : List Byte) (s : State) (h : s.Ready) (hs : shape args = .taken xs) :
    shapedCommand name shape run args s =
      trailingBytes (args.length - xs.length) (answerCommand (some name) (run xs s).1 (run xs s).2) := by
  unfold shapedCommand; simp only [h.settle_eq, h.collected_eq, List.nil_append, hs]

/-- A command whose argument bytes are complete, with none after them, is taken. -/
theorem shapedCommand_of_taken (name : CommandName) (shape : List Byte → Shape) (run : List Byte → State → Response × State)
    (args : List Byte) (s : State) (h : s.Ready) (hs : shape args = .taken args) :
    shapedCommand name shape run args s = answerCommand (some name) (run args s).1 (run args s).2 := by
  rw [shapedCommand_of_prefix name shape run args args s h hs, Nat.sub_self, trailingBytes_zero]

/-- A command is refused FORM at a length field, and the bytes after it are RESULTS bytes. -/
theorem shapedCommand_of_refused (name : CommandName) (shape : List Byte → Shape) (run : List Byte → State → Response × State)
    (args : List Byte) (used : Nat) (s : State) (h : s.Ready) (hs : shape args = .refused used) :
    shapedCommand name shape run args s =
      trailingBytes (args.length - used) (answerCommand (some name) (refusal .form) s) := by
  unfold shapedCommand; simp only [h.settle_eq, h.collected_eq, List.nil_append, hs]

/-- A row of the command in hand carries further argument bytes, which follow those already collected (R167). -/
theorem State.collected_of_arguments (name : CommandName) (s : State) (hr : s.inReset = false) (hp : s.port.phase = .arguments)
    (hc : s.port.command = some name) : s.collected name = some s.port.args := by
  simp [State.collected, State.takesCommand, hr, hp, hc]

/-- `n` argument bytes, exactly. -/
theorem exactly_of_length (n : Nat) (args : List Byte) (h : args.length = n) : exactly n args = .taken args := by
  subst h; simp [exactly]

/-- Ignored bytes touch the host port alone. -/
theorem ignoreBytes_eq (n : Nat) (s : State) : ∃ p, ignoreBytes n s = s.withPort p := by
  unfold ignoreBytes; split
  · exact ⟨s.port, rfl⟩
  · exact ⟨_, rfl⟩

/-- Clocking bytes leaves the notices, the reservation, the dropped count and the marks. -/
theorem Port.clocked_keeps (p : Port) (n : Nat) :
    (p.clocked n).notices = p.notices ∧ (p.clocked n).reservation = p.reservation ∧ (p.clocked n).dropped = p.dropped ∧
      (p.clocked n).seen = p.seen ∧ (p.clocked n).response = p.response := by
  unfold Port.clocked; split
  · exact ⟨rfl, rfl, rfl, rfl, rfl⟩
  · exact ⟨rfl, rfl, rfl, rfl, rfl⟩

@[simp] theorem answerCommand_pins (n : Option CommandName) (r : Response) (s : State) :
    (answerCommand n r s).pins = s.pins := rfl
@[simp] theorem answerCommand_station (n : Option CommandName) (r : Response) (s : State) :
    (answerCommand n r s).station = s.station := rfl
@[simp] theorem answerCommand_clock (n : Option CommandName) (r : Response) (s : State) :
    (answerCommand n r s).clock = s.clock := rfl
@[simp] theorem answerCommand_cues (n : Option CommandName) (r : Response) (s : State) :
    (answerCommand n r s).cues = s.cues := rfl
@[simp] theorem answerCommand_points (n : Option CommandName) (r : Response) (s : State) :
    (answerCommand n r s).points = s.points := rfl
@[simp] theorem answerCommand_line (n : Option CommandName) (r : Response) (s : State) :
    (answerCommand n r s).line = s.line := rfl
@[simp] theorem answerCommand_decoder (n : Option CommandName) (r : Response) (s : State) :
    (answerCommand n r s).decoder = s.decoder := rfl
@[simp] theorem answerCommand_send (n : Option CommandName) (r : Response) (s : State) :
    (answerCommand n r s).send = s.send := rfl
@[simp] theorem answerCommand_inputs (n : Option CommandName) (r : Response) (s : State) :
    (answerCommand n r s).inputs = s.inputs := rfl
@[simp] theorem answerCommand_peers (n : Option CommandName) (r : Response) (s : State) :
    (answerCommand n r s).peers = s.peers := rfl
@[simp] theorem answerCommand_work (n : Option CommandName) (r : Response) (s : State) :
    (answerCommand n r s).work = s.work := rfl
@[simp] theorem answerCommand_notices (n : Option CommandName) (r : Response) (s : State) :
    (answerCommand n r s).port.notices = s.port.notices := rfl
@[simp] theorem answerCommand_response (n : Option CommandName) (r : Response) (s : State) :
    (answerCommand n r s).port.response = some r := rfl

/-! ### Ending send entries -/

/-- Ending entries touches the issued list and the host port, nothing else. -/
theorem endEntries_eq (o : SendOutcome) (es : List SendEntry) (s : State) :
    ∃ p, endEntries o es s =
      (s.withSend { s.send with issued := es.foldl (fun l e => issuedAfter e o l) s.send.issued }).withPort p := by
  induction es generalizing s with
  | nil => exact ⟨s.port, rfl⟩
  | cons e es ih =>
    obtain ⟨p, hp⟩ := ih (endEntry o e s)
    exact ⟨p, by rw [endEntries, hp]; rfl⟩

/-- Entries that end other than ACCEPTED add the serials of their CUEs that were BROKEN once. -/
theorem issuedAfter_foldl (o : SendOutcome) (ho : o ≠ .accepted) (es : List SendEntry) (l : List Issued) :
    es.foldl (fun l e => issuedAfter e o l) l = l ++ issuedByEnding es := by
  induction es generalizing l with
  | nil => simp [issuedByEnding]
  | cons e es ih =>
    rw [List.foldl_cons, ih]
    have ho' : (o == SendOutcome.accepted) = false := by simpa using ho
    cases hk : (e.kind == SendKind.cue && e.brokenSeen) <;>
      simp [issuedAfter, entersIssued, issuedByEnding, ho, ho', hk]

/-- R137: the queue is empty, nothing stands offered, and the issued list has what ending the entries adds. -/
theorem silenceQueue_eq (s : State) :
    ∃ p, silenceQueue s = (s.withSend { s.send with
      queue := [], issued := s.send.issued ++ issuedByEnding s.send.queue, offered := .none }).withPort p := by
  obtain ⟨p, hp⟩ := endEntries_eq .silenced s.send.queue (s.withSend { s.send with queue := [], offered := .none })
  refine ⟨p, ?_⟩
  rw [silenceQueue, hp, issuedAfter_foldl .silenced (by decide)]
  rfl

/-- An update of one block is one that leaves the port as it is. -/
theorem withSend_withPort (s : State) (u : SendUnit) : s.withSend u = (s.withSend u).withPort s.port := rfl
theorem withCues_withPort (s : State) (c : CueTable) : s.withCues c = (s.withCues c).withPort s.port := rfl

/-- R132, R133: an attempt's outcome touches the send unit and the host port, nothing else. -/
theorem attemptOutcome_eq (o : AttemptOutcome) (s : State) :
    ∃ u p, attemptOutcome o s = (s.withSend u).withPort p := by
  unfold attemptOutcome
  split
  · exact ⟨_, s.port, withSend_withPort s _⟩
  · unfold headOutcome
    split
    · exact ⟨s.send, s.port, rfl⟩
    · split
      · exact ⟨_, s.port, withSend_withPort s _⟩
      · exact ⟨_, _, rfl⟩

/-- R131: the offers touch the send unit and the host port, nothing else. -/
theorem offerQueue_eq (n : Nat) (s : State) : ∃ u p, offerQueue n s = (s.withSend u).withPort p := by
  induction n generalizing s with
  | zero => exact ⟨s.send, s.port, rfl⟩
  | succ n ih =>
    unfold offerQueue
    split
    · exact ⟨s.send, s.port, rfl⟩
    · split
      · exact ⟨s.send, s.port, rfl⟩
      · split
        · rename_i e rest _ _ _ o _
          obtain ⟨u, p, h⟩ := ih (endEntry o e (s.withSend { s.send with queue := rest }))
          exact ⟨u, p, by rw [h]; rfl⟩
        · exact ⟨_, s.port, withSend_withPort s _⟩

/-! ### Station control -/

/-- R161: a change of station state queues its STATION notice. -/
theorem enterState_eq (new : StationState) (cause : StationCause) (kind : Option (BitVec 3)) (s : State) :
    enterState new cause kind s = (s.withStation { s.station with state := new }).withPort
      (s.port.push true (.station (some s.station.state) new cause kind s.station.id s.clock.lineTime)) := rfl

/-- R87: the line clock at the entry to SILENT touches the slot, the clock and the host port. -/
theorem clockLeavesActive_eq (s : State) :
    ∃ p, clockLeavesActive s = ((s.withSend { s.send with
        slot := if s.send.slot = .queued then .empty else s.send.slot }).withClock
      (if s.clock.state = .reference then
        { s.clock with state := .holdover, refId := none, holdoverCount := 0, missCount := 0 } else s.clock)).withPort p := by
  unfold clockLeavesActive
  by_cases h : s.clock.state = .reference <;> simp only [State.withSend_clock, h, if_true, if_false]
  · exact ⟨_, rfl⟩
  · exact ⟨_, rfl⟩

/-! ### The cue table and the points -/

/-- R10, R11: an entry is inserted, and the entries already there keep their order. -/
theorem insertEntry_split (base : Time) (e : CueEntry) (es : List CueEntry) :
    ∃ front behind, es = front ++ behind ∧ insertEntry base e es = front ++ e :: behind := by
  induction es with
  | nil => exact ⟨[], [], rfl, rfl⟩
  | cons f fs ih =>
    unfold insertEntry
    split
    · obtain ⟨front, behind, h, h'⟩ := ih
      exact ⟨f :: front, behind, by rw [h]; rfl, by rw [h']; rfl⟩
    · exact ⟨[], f :: fs, rfl, rfl⟩

/-- An insertion adds its entry and keeps the rest. -/
theorem mem_insertEntry (base : Time) (e x : CueEntry) (es : List CueEntry) :
    x ∈ insertEntry base e es ↔ x = e ∨ x ∈ es := by
  obtain ⟨front, behind, h, h'⟩ := insertEntry_split base e es
  rw [h', h]
  simp only [List.mem_append, List.mem_cons]
  tauto

theorem length_insertEntry (base : Time) (e : CueEntry) (es : List CueEntry) :
    (insertEntry base e es).length = es.length + 1 := by
  obtain ⟨front, behind, h, h'⟩ := insertEntry_split base e es
  rw [h', h]
  simp only [List.length_append, List.length_cons]
  omega

/-- R62, R63: what is pending for the points after a restore is cancelled or recorded. -/
theorem mem_cancelRestore (i : Fin 16) (ps : List Restore) (r : Restore) :
    r ∈ cancelRestore i ps ↔ r ∈ ps ∧ r.point ≠ i := by
  simp [cancelRestore]

theorem mem_recordRestore (n : Restore) (ps : List Restore) (r : Restore) :
    r ∈ recordRestore n ps ↔ (r ∈ ps ∧ r.point ≠ n.point) ∨ r = n := by
  simp [recordRestore, mem_cancelRestore]

/-- One action keeps the owners. -/
@[simp] theorem Points.apply_owners (p : Points) (fire : Time) (a : Action) : (p.apply fire a).owners = p.owners := by
  unfold Points.apply; split <;> rfl

@[simp] theorem applyActions_owners (fire : Time) (as : List Action) (p : Points) :
    (applyActions fire as p).owners = p.owners := by
  induction as generalizing p with
  | nil => rfl
  | cons a as ih =>
    unfold applyActions
    split
    · rw [ih, Points.apply_owners]
    · exact ih p

/-- R30, R32 to R34, R40, R41: the owner's reaction to a CUE or WITHDRAW frame's outcome touches the table and the host port. -/
theorem cueTableOutcome_eq (o : Outcome) (s : State) : ∃ c p, cueTableOutcome o s = (s.withCues c).withPort p := by
  unfold cueTableOutcome
  split
  · exact ⟨s.cues, s.port, rfl⟩
  · split
    · unfold armProvisional; split
      · exact ⟨_, _, rfl⟩
      · exact ⟨_, s.port, withCues_withPort s _⟩
    · exact ⟨_, s.port, withCues_withPort s _⟩
    · unfold removeMarked; split
      · exact ⟨_, _, rfl⟩
      · exact ⟨_, s.port, withCues_withPort s _⟩
    · exact ⟨_, s.port, withCues_withPort s _⟩
    · exact ⟨_, s.port, withCues_withPort s _⟩
    · exact ⟨_, s.port, withCues_withPort s _⟩

/-- R175: the host port's reaction to its frame's outcome touches the host port. -/
theorem hostPortOutcome_eq (o : Outcome) (s : State) : ∃ p, hostPortOutcome o s = s.withPort p := by
  unfold hostPortOutcome
  split
  · exact ⟨s.port, rfl⟩
  · cases o
    · exact ⟨_, rfl⟩
    · exact ⟨_, rfl⟩
    · exact ⟨_, rfl⟩
    · exact ⟨_, rfl⟩

/-! ### The stretch -/

@[simp] theorem Stretch.letGo_none : Stretch.none.letGo = .none := rfl
@[simp] theorem Stretch.letGo_holding : Stretch.holding.letGo = .released := rfl
@[simp] theorem Stretch.letGo_released : Stretch.released.letGo = .released := rfl

/-- R100: nothing holds the stretch after it is let go. -/
theorem Stretch.letGo_ne_holding (x : Stretch) : x.letGo ≠ .holding := by cases x <;> decide

/-! ### Time -/

/-- R71: what the next due time says, where there is one. -/
theorem Clock.nextDueIsNear_iff (c : Clock) : c.nextDueIsNear = true ↔ ∀ d, c.nextDue = some d →
    d.toNat % c.beaconPeriod = 0 ∧ 1 ≤ distance d c.lineTime ∧ distance d c.lineTime ≤ c.beaconPeriod := by
  unfold Clock.nextDueIsNear
  cases h : c.nextDue <;> simp [and_assoc]

/-- R64: applied restores keep the owners. -/
@[simp] theorem setRestored_owners (rs : List Restore) (p : Points) : (setRestored rs p).owners = p.owners := by
  induction rs generalizing p with
  | nil => rfl
  | cons r rs ih => exact ih _

/-- R70, R143, R149: an advance reaches what lies at a distance from 0 to its size. -/
theorem Advance.reaches_iff (adv : Advance) (t : Time) : adv.reaches t = true ↔ distance t adv.base ≤ adv.size :=
  decide_eq_true_iff

/-- R130: an advance passes what lies at a distance from 0 to its size less one. -/
theorem Advance.passes_iff (adv : Advance) (t : Time) : adv.passes t = true ↔ distance t adv.base < adv.size :=
  decide_eq_true_iff

end Sys2Proof.Machine
end

