-- ==== Sys2Proof/Tests/Slice0.lean ====
section
/-! SUPPORT. Tests: an ill-formed term for each check of WellFormed; small steps whose results are worked out from the manual's rules;
and, for each statement with hypotheses, a state and operands that meet them (`witness_…`, one conjunct for a clause). -/

set_option maxRecDepth 100000

namespace Sys2Proof.Tests
open Sys2Proof Sys2Proof.Machine

/-! ### States -/

/-- An ACTIVE station 6 that follows station 5, group 4, CP0 to CP2 owned by the line, on an idle line. -/
def live : State :=
  { State.reset with
    pins := ⟨.high, .high, ⟨.low, .low, .low, .low⟩⟩,
    station := { state := .active, id := 6, eligible := true, rate := .kbit125,
                 setup := { SetupRecord.default with groups := [4], lineMask := 7 }, leavePending := false, dupPending := false },
    clock := { Clock.reset with lineTime := 1000, state := .following, refId := some 5, nextDue := some 1024 },
    points := { owners := 7, levels := 0, pulses := [] },
    line := { Line.reset with state := .idle } }

def inStation (s : State) (x : StationState) : State := s.withStation { s.station with state := x }
def inClock (s : State) (x : ClockState) : State := s.withClock { s.clock with state := x }
def inLine (s : State) (x : LineState) : State := s.withLine { s.line with state := x }
def withNotices (s : State) (n : Nat) : State :=
  s.withPort { s.port with notices := List.replicate n (.configMismatch 1 0 2 7) }
def advancing (s : State) (size : Nat) : State := s.withWork { Work.none with advance := some ⟨s.clock.lineTime, size⟩ }

/-- In SETUP, HALTED and LISTEN (the line interface OFF before JOIN). -/
def fresh : State := { inStation live .setup with line := Line.reset, clock := Clock.reset, points := Points.reset }
def halted : State := inStation fresh .halted
def listening : State := inLine (inStation live .listen) .waitIdle

/-- A CUE body: CP1 high for 5 ticks. -/
def body (serial : Byte) (fire : Time) : CueBody := ⟨serial, fire, none, [⟨.pulseHigh 5, 1⟩]⟩
def looping : CueBody := ⟨3, 1100, some ⟨10, 2⟩, [⟨.raise, 0⟩, ⟨.lower, 9⟩]⟩
def entry (issuer serial : Byte) (fire : Time) : CueEntry :=
  ⟨⟨issuer, serial⟩, fire, ⟨.group, 0⟩, [⟨.pulseHigh 5, 1⟩], none, .line, false⟩
def sendEntry (kind : SendKind) (serial : Option Byte) (b : List Byte) : SendEntry :=
  { handle := 9, source := .host, kind := kind, scope := ⟨.group, 4⟩, body := b, serial := serial, attemptsLeft := 2, losses := 0,
    brokenSeen := false, retire := false, inFlight := false }
def queuedCue : SendEntry := sendEntry .cue (some 2) (encodeCue (body 2 2000))
def withQueue (es : List SendEntry) (s : State) : State := s.withSend { s.send with queue := es }

/-- `live` with something in every block. -/
def busy : State :=
  { withQueue [queuedCue, sendEntry .message none [1]] live with
    cues := { armed := [entry 5 1 1200, entry 7 2 1300], provisional := none, offer := none },
    points := { owners := 7, levels := 2, pulses := [⟨1, 1100, .low⟩] },
    port := { Port.reset with notices := [.configMismatch 1 0 2 7] } }
def holding (c : Capture) (t : Option Template) (gap : Option Time) : State :=
  live.withInputs ⟨{ TriggerInput.reset with selection := .both, gap := 3, capture := c, template := t, gapEnd := gap },
    .reset, .reset, .reset⟩
def template : Template := ⟨⟨.group, 0⟩, 40, none, [⟨.raise, 1⟩]⟩

/-- The instant after the last check bit of this frame, received in `s`. -/
def heard (s : State) (kind : BitVec 3) (sender : Byte) (scope : Scope) (b : List Byte) : State :=
  { s with
    line := { s.line with state := .receiving, role := .receiver, position := some (39 + 8 * b.length),
                          frameLength := some (42 + 8 * b.length), rx := frameBits kind sender scope b },
    decoder := { Decoder.reset with kind := some kind, owner := ownerOfKind kind, sender := some sender,
                                    scopeMode := some scope.mode, scopeNumber := some scope.number, length := some b.length,
                                    checkAcc := checkOf (frameDataBits kind sender scope b) },
    work := { Work.none with evaluate := true } }
def ownFrame (s : State) : State :=
  (s.withDecoder { s.decoder with ownFrame := true }).withLine { s.line with role := .sender, arbitration := .contending }

/-- After the end bit, with these slots, before the end condition; the frame's answer has been driven. -/
def ended (s : State) (owner : FrameOwner) (role : Role) (take veto : Level) : State :=
  (s.withDecoder { Decoder.reset with owner := owner, ownFrame := role == .sender }).withLine
    { s.line with state := .answering, role := role, arbitration := if role = .sender then .won else .none,
                  position := some 50, frameLength := some 50, answered := true, takeSlot := some take, vetoSlot := some veto }

/-! ### Ill-formed terms are refused -/

theorem test_setup_short_refused : (Instr.setup [0, 1]).wellFormed = false := by decide
theorem test_setup_trailing_refused : (Instr.setup (9 :: List.replicate 5 0)).wellFormed = false := by decide
theorem test_setup_accepted : (Instr.setup SetupRecord.default.bytes).wellFormed = true := by decide
theorem test_send_short_refused : (Instr.send [1, 1, 0, 0]).wellFormed = false := by decide
theorem test_send_trailing_refused : (Instr.send [1, 1, 0, 0, 5, 5]).wellFormed = false := by decide
theorem test_send_kind0_accepted : (Instr.send [1, 0]).wellFormed = true := by decide
theorem test_loadTrigger_short_refused : (Instr.loadTrigger [0, 0, 0, 0, 40, 1]).wellFormed = false := by decide
theorem test_setPoints_refused : (Instr.setPoints [0, 1] [0]).wellFormed = false ∧
    (Instr.setPoints [0, 1] [0, 1, 0]).wellFormed = false := by decide
theorem test_listCue_refused : (Instr.listCue []).wellFormed = false ∧ (Instr.listCue [0, 0]).wellFormed = false := by decide
theorem test_dropCue_refused : (Instr.dropCue [1] []).wellFormed = false ∧ (Instr.dropCue [1] [2, 3]).wellFormed = false := by decide
theorem test_readCapture_refused : (Instr.readCapture []).wellFormed = false ∧ (Instr.readCapture [0, 0]).wellFormed = false := by
  decide
theorem test_peer_refused : (Instr.peer []).wellFormed = false ∧ (Instr.peer [5, 5]).wellFormed = false := by decide
theorem test_unknownCommand_known_refused : (Instr.unknownCommand 0x31).wellFormed = false := by decide
theorem test_cutShort_long_refused : (Instr.transactionCutShort 256).wellFormed = false := by decide
theorem test_peerSilence_refused : (Instr.peerSilence 0).wellFormed = false ∧ (Instr.peerSilence 63).wellFormed = false := by
  decide

/-! ### The check, the formats -/

/-- R181: the ASCII digits 1 to 9 give 29B1H with generator 1021H, preset FFFFH, most significant bit first (a published check value
of these parameters). -/
theorem test_check_of_digits :
    checkOf (([0x31, 0x32, 0x33, 0x34, 0x35, 0x36, 0x37, 0x38, 0x39] : List Byte).flatMap bitsOf) = 0x29B1 := by decide

/-- Formats: op 3 in bits 15 to 13, point 1 in bits 12 to 9, the width word next. -/
theorem test_cue_bytes : encodeCue (body 2 0x01020304) = [2, 1, 2, 3, 4, 1, 0x62, 0, 0, 5] := by decide
theorem test_cue_repeat_bytes :
    encodeCue looping = [3, 0, 0, 4, 0x4C, 0x82, 0, 10, 2, 0, 0, 0x32, 0] := by decide
theorem test_cue_rejects :
    parseCue [2, 0, 0, 0, 0, 0] = none ∧ parseCue [2, 0, 0, 0, 0, 1, 0x62, 0, 0, 0] = none ∧
      parseCue [2, 0, 0, 0, 0, 1, 0, 1] = none ∧ parseCue [2, 0, 0, 0, 0, 1, 0xA2, 0] = none ∧
      parseCue [2, 0, 0, 0, 0, 0x81, 0, 0, 1, 0, 0] = none := by decide

/-! ### Small steps -/

/-- R48: CP1 is line-owned and is reported; CP4 is set. -/
theorem test_setPoints : (live.after (.setPoints [0, 0x12] [0, 0x12])).points.levels = 0x10 ∧
    (live.after (.setPoints [0, 0x12] [0, 0x12])).port.response = some ⟨.ok, [0, 2, 0, 0x10]⟩ := by decide

/-- Formats: 40H is SET_POINTS, 70H PEER; 71H names no command (R168). -/
theorem test_command_bytes :
    commandOfBytes ⟨1, .low, .low⟩ [0x40, 0, 1, 0, 1] = some (.setPoints [0, 1] [0, 1]) ∧
      commandOfBytes ⟨1, .low, .low⟩ [0x70, 5] = some (.peer [5]) ∧
      commandOfBytes ⟨1, .low, .low⟩ [0x71] = some (.unknownCommand 0x71) := by decide

/-- R167: SET_POINTS in two rows of one transaction, then its five response bytes clocked out. -/
theorem test_transaction :
    let s := live.afterAll [.transactionBegin, .setPoints [0, 0x10] [], .setPoints [] [0, 0x10]]
    s.port.phase = .results ∧ s.port.miso = 0 ∧ s.points.levels = 0x10 ∧
      (s.afterAll (List.replicate 4 (.unknownCommand 0))).port.miso = 0x10 ∧
      (s.afterAll (List.replicate 5 (.unknownCommand 0))).port.phase = .done := by decide

/-- R168: a group count of 9 is answered FORM at once, and the byte after it is a RESULTS byte, which leads to DONE. -/
theorem test_bytes_after_refusal :
    let s := fresh.afterAll [.transactionBegin, .setup [9, 0]]
    s.port.phase = .done ∧ s.port.response = some ⟨.form, []⟩ ∧ s.port.shifted = 1 ∧
      (fresh.afterAll [.transactionBegin, .setup [9]]).port.phase = .results := by decide

/-- R105: in RECOVER a second low run of DATA is reported, the first run only once. -/
theorem test_stuck_again :
    let s := live.after (.stuckLow ⟨.data, false⟩)
    s.port.notices.length = 1 ∧ (s.after (.stuckLow ⟨.data, false⟩)).port.notices.length = 1 ∧
      (s.after (.stuckLow ⟨.data, true⟩)).port.notices.length = 2 := by decide

/-- R100: with the answer in hand the take slot's stretch is HOLDING at the fall and RELEASED with PACE at the half-period's end. -/
theorem test_stretch_short :
    let s := (live.withLine { live.line with state := .answering, driving := true, answered := true, ownAnswer := .take,
                                             position := some 47, frameLength := some 50 }).after .paceFall
    s.line.stretch = .holding ∧ s.line.drivesData = true ∧ (s.after .halfPeriodEnd).line.stretch = .released ∧
      (s.after .halfPeriodEnd).line.drivesPace = false := by decide

/-- R53, R62: the advance to 1200 fires the head; CP1 is high and its restore is at 1205. -/
theorem test_firing : (((advancing busy 200).withPoints { busy.points with pulses := [] }).after .firing).points.pulses =
    [⟨1, 1205, .low⟩] := by decide

/-- R57: at the advance from 1000 to 1111, a repeating entry of 1100 with period 10 and count 2 has passed one repeat. -/
theorem test_repeat : (afterFiring 1111 { entry 5 1 1100 with rep := some ⟨10, 2⟩ }) =
    ⟨some { entry 5 1 1120 with rep := none }, 0, 1⟩ := by decide

/-- R149, R147: an edge with a template queues a CUE for the lead after the edge. -/
theorem test_edge_emits : ((holding .empty (some template) none).after (.triggerEdge 0 .high)).send.queue.map (fun e => e.body) =
    [[0, 0, 0, 4, 0x10, 1, 2, 0]] := by decide

/-- R73: an own beacon in FOLLOWING makes the station the reference. -/
theorem test_own_beacon : 
    let t := ((ended live .lineClock .sender .low .high).withSend { live.send with slot := .inFlight }).after .endCondition
    t.clock.state = .reference ∧ t.clock.refId = some 6 ∧ t.send.slot = .empty := by decide

/-- R98, R132: the beacon's or frame's first bit lost to a dominant one returns the head with one loss. -/
theorem test_arbitration_lost :
    let s := ((withQueue [{ queuedCue with inFlight := true }] live).withWork { Work.none with arbLost := true }).after .arbitrationLost
    s.line.role = .receiver ∧ s.send.queue = [{ queuedCue with losses := 1 }] := by decide

/-- "The frame-length margin": 1876 µs at 125 kbit/s, 469 µs at 500 kbit/s, 16 clocks a microsecond. -/
theorem test_frame_clocks : Rate.frameClocks .kbit125 24 = 1876 * 16 ∧ Rate.frameClocks .kbit500 24 = 469 * 16 := by decide

/-- The bit-timing table: an idle gap of 96 µs and 24 µs. -/
theorem test_idle_gap : Rate.idleGapClocks .kbit125 = 96 * 16 ∧ Rate.idleGapClocks .kbit500 = 24 * 16 := by decide

/-- R106, R109: a stall with PACE high. -/
theorem test_stall : ((withNotices (ended live .cueTable .receiver .low .high) 0).after .stall).line.state = .recover := by decide

/-! ### Witnesses: the instant, the invariants, formats -/

theorem witness_StepTakesFrontOfQueue :
    (live.withPending [.tick, .time]).pending = .tick :: [.time] ∧ live.pending = [] := by decide

theorem witness_EventsMeetAFinishedInstant : startsInstant .tick = true ∧ (advancing live 1).settled = false := by decide
/-- An advance from 1000 by 250 that reaches the entry at 1200, the restore at 1100, a hold end and a gap end, and passes an issued entry. -/
def overdue : State :=
  { busy with
    clock := { busy.clock with lineTime := 1250, nextDue := some 2048 },
    inputs := ⟨{ TriggerInput.reset with capture := .held 900 .rise 0 1250, gapEnd := some 1001 }, .reset, .reset, .reset⟩,
    send := { busy.send with issued := [⟨7, ⟨.group, 0⟩, 1249⟩, ⟨8, ⟨.group, 0⟩, 1250⟩] },
    work := { Work.none with advance := some ⟨1000, 250⟩ } }
theorem witness_EventsMeetAFinishedInstant_advance : overdue.TableSafe ∧ overdue.OrderSafe ∧ overdue.send.Safe := by decide
/-- R51, R130, R143, R149: the entry at 1200 and the restore at 1100 are taken, and the pulse of the entry is over at 1205. -/
theorem test_settled_advance :
    (settle overdue).cues.armed = [entry 7 2 1300] ∧ (settle overdue).points.pulses = [] ∧
      (settle overdue).inputs.t0.capture = .expired 900 .rise 0 ∧ (settle overdue).inputs.t0.gapEnd = none ∧
      (settle overdue).send.issued.map (fun x => x.serial) = [8] := by decide
theorem witness_EventsMeetAFinishedInstant_parts :
    (∃ t, exec .firing overdue = .next t) ∧
      (∃ t, exec .beaconDueTime (live.withWork { Work.none with due := true }) = .next t) ∧
      ∃ t, exec .evaluationPoint overdue = .next t := ⟨⟨_, rfl⟩, ⟨_, rfl⟩, ⟨_, rfl⟩⟩

/-- A busy state meets every invariant, and a step leads on from it. -/
theorem witness_invariants : busy.port.Safe ∧ busy.send.Safe ∧ busy.LineSafe ∧ busy.TableSafe ∧ busy.OrderSafe ∧
    busy.FireTimesInSpan := by decide
theorem witness_ClockRecordIsKept : busy.ClockSafe := by decide
theorem witness_CueTableIsKept_advance :
    let s := { busy with
      clock := { busy.clock with lineTime := 1250, nextDue := some 2048 }, work := { Work.none with advance := some ⟨1000, 250⟩ } }
    s.LineSafe ∧ s.TableSafe ∧ s.OrderSafe ∧ s.FireTimesInSpan := by decide
theorem witness_CountsAreKept : live.CountsSafe := ⟨by decide, by decide, by decide, fun i =>
  match i with
  | 0 => trivial
  | 1 => trivial
  | 2 => trivial
  | 3 => trivial⟩
theorem witness_step : ∃ t, step (busy.withPending [.tick]) = .next t := ⟨_, rfl⟩

theorem witness_CueBodyIsWellFormedExactly :
    looping.ok = true ∧ parseCue (encodeCue looping) = some looping ∧ (List.replicate 24 (0 : Byte)).length = 24 ∧
      ([1, 2, 3, 4] : List Byte).length < 5 := by decide
theorem witness_SetupRecordIsItsBytesExactly :
    SetupRecord.default.ok = true ∧ SetupRecord.default.gapsOk = true ∧
      parseSetup SetupRecord.default.bytes = some SetupRecord.default := by decide
theorem witness_FrameIsReceivedAsSent :
    let s := live.withLine { live.line with state := .receiving, position := some 0 }
    s.hearing ∧ (63 : Byte).toNat < 64 ∧ (List.replicate 31 (0 : Byte)).length < 32 := by decide

/-! ### Witnesses: commands -/

theorem witness_RefusedCommandChangesNothing :
    isHostCommand (.dropCue [0] [0]) = true ∧ (Instr.dropCue [0] [0]).wellFormed = true ∧ live.Ready ∧
      (live.after (.dropCue [0] [0])).port.response = some ⟨.form, []⟩ ∧
      (live.after .nextNotice).port.response = some ⟨.empty, [0]⟩ := by decide
theorem witness_RefusedCommandChangesNothing_halted :
    halted.Ready ∧ halted.station.state = .halted ∧ shapeRefused (.send [1, 0]) ∧ ¬shapeRefused .join := by
  refine ⟨by decide, rfl, ?_, id⟩
  exact ⟨2, by decide⟩
theorem witness_ShapeRefusalsAnswerForm :
    live.Ready ∧ 3 < (4 : Byte).toNat ∧ 25 ≤ (25 : Byte).toNat ∧ 4 < ((0x85 : Byte).extractLsb' 0 3).toNat ∧
      8 < (9 : Byte).toNat := by decide
theorem witness_SetupReplacesTheRecord :
    fresh.Ready ∧ fresh.station.state = .setup ∧ SetupRecord.default.ok = true ∧ SetupRecord.default.gapsOk = true := by decide
theorem witness_SetupReplacesTheRecord_refused :
    let bad := { SetupRecord.default with minLead := 7 }.bytes
    live.Ready ∧ live.station.state ≠ .setup ∧ setupShape bad = .taken bad ∧ parseSetup bad = none ∧
      (fresh.after (.setup bad)).port.response = some ⟨.form, []⟩ := by decide
theorem witness_JoinTakesTheFrozenRecord :
    let s := withNotices fresh 11
    s.Ready ∧ s.station.state = .setup ∧ s.station.setup.ok = true ∧ s.port.used + 5 ≤ Config.noticeCapacity ∧
      s.station.setup.enableMask.getLsbD 10 = true ∧ live.Ready ∧ live.station.state ≠ .setup := by decide
theorem witness_LeaveSilencesOrWaits :
    let s := withNotices live 15
    s.Ready ∧ s.station.state = .active ∧ s.station.leavePending = false ∧ s.line.role ≠ .sender ∧
      s.port.used < Config.noticeCapacity ∧ listening.Ready ∧
      (live.withStation { live.station with leavePending := true }).Ready ∧
      (live.withLine { live.line with role := .sender, state := .sending }).Ready ∧ halted.Ready := by decide
theorem witness_LeaveSilencesOrWaits_notices :
    let s := withQueue [queuedCue, sendEntry .message none [1]] (inLine (inClock live .reference) .waitIdle)
    s.Ready ∧ s.station.state = .active ∧ s.clock.state = .reference ∧ s.station.enables .clock = true ∧
      s.port.used + s.send.queue.length + 2 ≤ Config.noticeCapacity := by decide
theorem witness_RestartResetsEveryBlock :
    (busy.points.pulses.map (fun r => r.point)).Nodup ∧ (live.withPoints busy.points).Ready ∧ (63 : BitVec 6) ≠ 0 ∧
      (62 : BitVec 6) ≠ 0 ∧ (62 : BitVec 6) ≠ 63 := by decide
theorem witness_FullResetAndRelease :
    State.reset.settled = true ∧ State.reset.pins.nrst = .low ∧ State.reset.port = Port.reset ∧ (1 : BitVec 6) ≠ 63 := by decide
theorem witness_SendOfACueJoinsTheQueue :
    let s := (withQueue (List.replicate 7 (sendEntry .message none [1])) listening).withSend
      { listening.send with queue := List.replicate 7 (sendEntry .message none [1]),
                            issued := List.replicate 31 ⟨1, ⟨.group, 4⟩, 5000⟩ }
    s.Ready ∧ s.station.state = .listen ∧ s.clock.state ≠ .unsynced ∧ parseScope 1 62 = some ⟨.station, 62⟩ ∧
      parseCue (0 :: (encodeCue looping).tail) = some { looping with serial := 0 } ∧ s.send.queue.length < 8 ∧
      s.send.issued.length + s.send.queuedCues < 32 := by decide
theorem witness_SendOfACueJoinsTheQueue_refused :
    let fields := (encodeCue looping).tail
    let args : List Byte := 9 :: 2 :: 1 :: 62 :: fields
    let full := withQueue (List.replicate 8 (sendEntry .message none [1])) listening
    sendShape args = .taken args ∧ sendShape [9, 2, 0, 0, 0, 0, 0, 0, 0] = .taken [9, 2, 0, 0, 0, 0, 0, 0, 0] ∧
      parseCue [0, 0, 0, 0, 0, 0] = none ∧ parseScope 1 63 = none ∧ fresh.Ready ∧ (inClock listening .unsynced).Ready ∧
      full.Ready ∧ full.send.queue.length = 8 ∧ parseCue (0 :: fields) ≠ none ∧ parseScope 1 62 ≠ none := by decide
theorem witness_SendOfAWithdrawOrMessageJoins_refused :
    let full := withQueue (List.replicate 8 (sendEntry .message none [1])) listening
    halted.Ready ∧ listening.Ready ∧ full.Ready ∧ full.send.queue.length = 8 ∧ listening.send.queue.length < 8 ∧
      listening.send.issued = [] ∧ parseScope 0 255 = none ∧ (24 : Byte).toNat = (List.replicate 24 (1 : Byte)).length := by decide
theorem witness_SendOfAWithdrawOrMessageJoins :
    let s := listening.withSend { listening.send with
      queue := List.replicate 7 (sendEntry .message none [1]), issued := [⟨3, ⟨.station, 9⟩, 5000⟩] }
    s.Ready ∧ s.station.state = .listen ∧ s.send.queue.length < 8 ∧
      s.send.issued.find? (fun x => x.serial == 3) = some ⟨3, ⟨.station, 9⟩, 5000⟩ ∧ parseScope 0 254 = some ⟨.group, 254⟩ ∧
      (List.replicate 24 (1 : Byte)).length ≤ 24 := by decide
theorem witness_SerialTakenIsTheFirstFree :
    (busy.withSend { busy.send with counter := 2 }).send.Safe ∧
      (busy.withSend { busy.send with counter := 2 }).send.nextSerial = 3 := by decide
theorem witness_PurgeEndsQueuedEntries :
    live.Ready ∧ live.station.state ≠ .halted ∧ (withQueue [queuedCue] listening).Ready ∧
      (withNotices listening 15).port.used + [queuedCue].length ≤ 16 ∧
      (withQueue [{ queuedCue with inFlight := true }, queuedCue] live).Ready := by decide
theorem witness_OffersOnAnIdleLine :
    let head (b : Byte) (fire : Time) := withQueue [{ queuedCue with body := encodeCue (body b fire) }] live
    live.work = Work.none ∧ live.station.state = .active ∧ live.line.state = .idle ∧ live.send.slot = .empty ∧
      live.send.offered = .none ∧ queuedCue.inFlight = false ∧
      distance (bodyFireTime (encodeCue (body 2 1032))) (head 2 1032).clock.lineTime = live.station.setup.minLead ∧
      distance (bodyFireTime (encodeCue (body 2 1031))) (head 2 1031).clock.lineTime < live.station.setup.minLead ∧
      2 ^ 31 ≤ distance (bodyFireTime (encodeCue (body 2 (1000 + 0x80000000)))) 1000 ∧
      distance (bodyFireTime (encodeCue (body 2 (1000 + 0x7FFFFFFF)))) 1000 < 2 ^ 31 ∧
      (inClock live .unsynced).work = Work.none := by decide
theorem witness_OffersOnAnIdleLine_beacon :
    let s := live.withSend { live.send with slot := .queued, offered := .head }
    s.work = Work.none ∧ s.station.state = .active ∧ s.line.state = .idle ∧ s.send.slot = .queued := by decide

/-! ### Witnesses: the host port and the views -/

theorem witness_NoticeIsMarkedQueuedOrDropped :
    let muted := live.withStation { live.station with setup := { live.station.setup with enableMask := 0 } }
    muted.station.enables .clock = false ∧ live.station.enables .clock = true ∧ (withNotices live 15).port.used < 16 ∧
      16 ≤ (withNotices live 16).port.used ∧
      ((withNotices live 15).withPort { (withNotices live 15).port with reservation := some ⟨5, ⟨.group, 0⟩⟩ }).port.Safe := by
  decide
theorem witness_NextNoticeTakesTheOldest :
    halted.Ready ∧ halted.station.state = .halted ∧ live.Ready ∧ live.port.notices = [] ∧ (withNotices live 1).Ready ∧
      (withNotices live 1).port.notices = .configMismatch 1 0 2 7 :: [] := by decide
theorem witness_StatusReportsAndClears : halted.Ready ∧ live.Ready := by decide
theorem witness_TransactionsBeginAndEnd :
    let inPhase (p : Phase) := (live.withPins { live.pins with ncs := .low }).withPort { live.port with phase := p }
    live.settled = true ∧ live.inReset = false ∧ live.pins.ncs = .high ∧ (inPhase .results).settled = true ∧
      (inPhase .arguments).settled = true ∧ (inPhase .command).Ready ∧ knownCode 0 = false ∧ knownCode 0x71 = false ∧
      (inPhase .done).settled = true ∧ (inPhase .command).pins.ncs = .low ∧ argumentShape .send [9] = .collecting 1 ∧
      argumentShape .setPoints [0, 1] = .collecting 2 := by
  decide
theorem witness_TransactionsBeginAndEnd_running :
    let s := live.afterAll [.transactionBegin, .send [9]]
    let r := live.afterAll [.transactionBegin, .time]
    s.settled = true ∧ s.port.phase = .arguments ∧ s.port.command = some .send ∧ s.port.args = [9] ∧ s.pins.ncs = .low ∧
      r.settled = true ∧ r.port.phase = .results ∧ r.port.response ≠ none ∧ isHostCommand .status = true := by decide
theorem witness_TransactionsBeginAndEnd_trailing :
    let s := live.after .transactionBegin
    s.Ready ∧ s.pins.ncs = .low ∧ argumentShape .peer [5] = .taken [5] ∧ argumentShape .peer ([5] ++ [0]) = .taken [5] ∧
      (s.after (.peer [5])).port.phase = .results ∧ (s.after (.peer [5, 0])).port.shifted = 1 := by decide
theorem witness_ClockAndPointViews : live.Ready ∧ live.station.state ≠ .halted := by decide
theorem witness_ListCueReadsOneEntry :
    let s := live.withCues busy.cues
    halted.Ready ∧ s.Ready ∧ s.station.state ≠ .halted ∧ (1 : Byte).toNat < s.cues.armed.length ∧
      s.cues.armed.length ≤ (2 : Byte).toNat := by decide
theorem witness_PeerReadsOneRecord :
    live.Ready ∧ live.station.state ≠ .halted ∧ 63 ≤ (63 : Byte).toNat ∧ live.station.id = 6 ∧ (62 : Byte) ≠ live.station.id ∧
      live.peers[(62 : Byte).toNat - 1]? = some PeerRecord.reset ∧ live.peers[(1 : Byte).toNat - 1]? = some PeerRecord.reset := by
  decide
theorem witness_SetPointsReachesHostOwnedPoints : live.Ready ∧ live.station.state ≠ .halted ∧ halted.Ready := by decide
theorem witness_DropCueRemovesOneEntry :
    let s := live.withCues { busy.cues with provisional := some (entry 1 9 1500) }
    s.Ready ∧ (∃ e, s.cues.provisional = some e ∧ e.key = ⟨1, 9⟩) ∧ (∀ e ∈ s.cues.armed, e.key ≠ ⟨62, 9⟩) ∧
      s.cues.armed = [entry 5 1 1200] ++ entry 7 2 1300 :: [] ∧ (∀ x ∈ [entry 5 1 1200] ++ [], x.key ≠ ⟨7, 2⟩) := by
  refine ⟨by decide, ⟨_, rfl, rfl⟩, by decide, rfl, by decide⟩
theorem witness_InsertionKeepsTableOrder :
    busy.cues.armed.Pairwise (fun x y => aheadOf 1000 x y = true) ∧
      ∀ x ∈ busy.cues.armed, x.key ≠ (entry 5 2 1200).key := by decide
theorem witness_LeadAndHorizon :
    8 ≤ 8 ∧ 1023 ≤ 1023 ∧ (1031 - 1000 : Time).toNat = 32 - 1 ∧ (1032 - 1000 : Time).toNat = 32 ∧
      ((0x1000000 : Time) - 0).toNat = 2 ^ 24 ∧ ((0x1000001 : Time) - 0).toNat = 2 ^ 24 + 1 ∧
      ((0x7FFFFFFF : Time) - 0).toNat = 2 ^ 31 - 1 ∧ 2 ^ 31 ≤ ((0x80000000 : Time) - 0).toNat := by decide

/-! ### Witnesses: trigger inputs -/

theorem witness_TriggerCommandsActOnOneInput :
    fresh.Ready ∧ fresh.station.state = .setup ∧ parseScope 1 1 = some ⟨.station, 1⟩ ∧
      fresh.station.setup.minLead ≤ (word2 0 32).toNat ∧
      parseCue (0 :: 0 :: 0 :: 0 :: 0 :: planBytes looping.rep looping.actions) =
        some { looping with serial := 0, fireTime := 0 } ∧
      ((0x80 : Byte).extractLsb' 0 3) = 0 ∧ live.Ready ∧ (holding (.held 7 .rise 15 9) none none).Ready ∧
      (holding (.expired 7 .fall 0) none none).Ready := by decide
theorem witness_TriggerCommandsActOnOneInput_refused :
    let args : List Byte := [3, 0, 4, 0, 31, 1, 0, 0]
    loadTriggerShape args = .taken args ∧ halted.Ready ∧ (inStation live .silent).Ready ∧ ((1 : Byte).extractLsb' 0 3) ≠ 0 ∧
      parseScope 0 255 = none ∧ (word2 0 31).toNat < live.station.setup.minLead ∧ 4 ≤ (4 : Byte).toNat ∧
      parseCue [0, 0, 0, 0, 0, 1, 0xA0, 0] = none := by decide
theorem witness_EdgeIsCaptured :
    let s := holding (.held 7 .rise 15 9) (some template) (some 2000)
    s.settled = true ∧ s.inReset = false ∧ s.station.joined = true ∧ (fourGet s.inputs 0).level ≠ .high ∧
      (fourGet s.inputs 0).selection = .both ∧ (fourGet s.inputs 0).gapEnd ≠ none ∧
      (fourGet s.inputs 1).selection = .off ∧ (fourGet s.inputs 1).level ≠ .high := by decide
theorem witness_EdgeIsEmittedOrDropped :
    let s := holding .empty (some template) none
    let full := withQueue (List.replicate 8 (sendEntry .message none [1])) s
    s.settled = true ∧ s.inReset = false ∧ s.station.joined = true ∧ (fourGet s.inputs 0).level ≠ .high ∧
      (fourGet s.inputs 0).selection = .both ∧ (fourGet s.inputs 0).template = some template ∧
      (fourGet s.inputs 0).gapEnd = none ∧ s.station.state ≠ .silent ∧ s.clock.state ≠ .unsynced ∧ s.send.queue.length < 8 ∧
      s.send.issued.length + s.send.queuedCues < 32 ∧ (inStation s .silent).settled = true ∧
      (inClock s .unsynced).settled = true ∧ (inLine full .waitIdle).settled = true ∧ 8 ≤ full.send.queue.length := by decide

/-! ### Witnesses: line time, firing -/

theorem witness_TicksAndTheirReaders :
    let slewing (r : Int) (p : Nat) := live.withClock { live.clock with slewRemainder := r, slewPhase := p }
    live.settled = true ∧ live.inReset = false ∧ live.clock.slewRemainder = 0 ∧ (slewing 16 30).settled = true ∧
      (slewing 16 30).clock.slewPhase + 1 < 32 ∧ 32 ≤ (slewing 16 31).clock.slewPhase + 1 ∧ (slewing (-1) 31).clock.slewRemainder < 0 ∧
      (slewing (-1) 31).settled = true ∧ (advancing live 2).work.advance = some ⟨1000, 2⟩ := by decide
def due (s : State) : State := s.withWork { Work.none with due := true }
theorem witness_DueTimeCountsPlacesAndAges :
    let counting (m h : Nat) (w : WindowState) := due (live.withClock { live.clock with
      missCount := m, holdoverCount := h, window := w, windowCount := 2 })
    (counting 1 62 .running).work.due = true ∧ (counting 1 62 .running).clock.missCount < 2 ∧
      (inClock (counting 1 62 .running) .holdover).clock.holdoverCount < 63 ∧
      (inClock (counting 1 62 .running) .unsynced).clock.windowCount < 3 ∧ live.station.eligible = true ∧
      live.send.slot = .empty := by decide
theorem witness_DueTimesThatReachALimit :
    let s := due (live.withClock { live.clock with
      missCount := 2, holdoverCount := 63, window := .running, windowCount := 3 })
    s.work.due = true ∧ s.clock.state = .following ∧ 2 ≤ s.clock.missCount ∧ (inClock s .holdover).work.due = true ∧
      63 ≤ s.clock.holdoverCount ∧ (inClock s .unsynced).clock.window = .running ∧ 3 ≤ s.clock.windowCount ∧
      s.port.used < 16 ∧ s.station.enables .clock = true ∧
      (s.withPeers (List.replicate 62 { PeerRecord.reset with presence := .present, silenceCount := 7 })).peers[(62 : Byte).toNat - 1]? =
        some { PeerRecord.reset with presence := .present, silenceCount := 7 } ∧
      s.station.enables .peer = true ∧ (s.withPeers [{ PeerRecord.reset with presence := .present, silenceCount := 7 }]).port.used +
        1 + 1 ≤ 16 := by decide
theorem witness_ActionOnAPoint : live.points.owner 2 = .line ∧ live.points.owner 3 = .host := by decide
theorem witness_FiringOfTheHead :
    let s := advancing (live.withCues { busy.cues with armed := [{ entry 5 1 1100 with rep := some ⟨10, 2⟩ }] }) 110
    s.work.advance = some ⟨1000, 110⟩ ∧ 110 < 2 ^ 31 ∧ s.cues.armed = { entry 5 1 1100 with rep := some ⟨10, 2⟩ } :: [] ∧
      distance (entry 5 1 1100).fireTime 1000 ≤ 110 ∧ (2 - 1) * 10 ≤ 110 - 100 ∧ 110 - 100 < 2 * 10 ∧ 2 ≤ (2 : Byte).toNat ∧
      (∀ r ∈ s.points.pulses, distance r.time 1000 ≤ 110 → distance (entry 5 1 1100).fireTime 1000 ≤ distance r.time 1000) := by
  decide
theorem witness_RestoresAreAppliedInTheirTurn :
    let s := advancing (live.withPoints { busy.points with pulses := [⟨1, 1100, .low⟩, ⟨2, 1100, .high⟩] }) 100
    s.work.advance = some ⟨1000, 100⟩ ∧ (⟨1, 1100, .low⟩ : Restore) ∈ s.points.pulses ∧ distance 1100 1000 ≤ 100 ∧
      (∀ r ∈ s.points.pulses, distance 1100 1000 ≤ distance r.time 1000) ∧ s.cues.armed = [] ∧
      (s.points.pulses.map (fun r => r.point)).Nodup := by decide

/-! ### Witnesses: frames -/

def cueHeard (fire : Time) : State := heard live 2 5 ⟨.group, 4⟩ (encodeCue (body 1 fire))
theorem good_cueHeard (fire : Time) (h : (cueHeard fire).rxCheck = (cueHeard fire).decoder.checkAcc) :
    (cueHeard fire).goodFrame 2 5 ⟨.group, 4⟩ := ⟨h, rfl, rfl, rfl, rfl, rfl⟩

theorem witness_DamagedFrameIsVetoed :
    let s := (cueHeard 1100).withDecoder { (cueHeard 1100).decoder with checkAcc := 0 }
    s.atLastCheckBit ∧ s.rxCheck ≠ s.decoder.checkAcc := by decide
theorem witness_HeaderTestsOfAnIntactFrame :
    let s := heard live 4 5 ⟨.group, 0⟩ [1]
    let f := heard live 2 63 ⟨.station, 62⟩ [1]
    s.atLastCheckBit ∧ s.rxCheck = s.decoder.checkAcc ∧ s.decoder.kind = some 4 ∧ s.decoder.length = some 1 ∧
      f.atLastCheckBit ∧ f.rxCheck = f.decoder.checkAcc ∧ f.decoder.sender = some 63 ∧
      (heard live 0 62 ⟨.group, 0⟩ [1]).rxCheck = (heard live 0 62 ⟨.group, 0⟩ [1]).decoder.checkAcc := by decide
theorem witness_ScopeTestOfAGoodFrame : (cueHeard 1100).atLastCheckBit ∧ (cueHeard 1100).goodFrame 2 5 ⟨.group, 4⟩ :=
  ⟨by decide, good_cueHeard 1100 (by decide)⟩
theorem witness_GoodFrameIsReported :
    let mine := heard live 2 6 ⟨.group, 4⟩ (encodeCue (body 1 1100))
    (cueHeard 1100).goodFrame 2 5 ⟨.group, 4⟩ ∧ (5 : Byte) ≠ live.station.id ∧ live.peers[(5 : Byte).toNat - 1]? = some .reset ∧
      mine.goodFrame 2 6 ⟨.group, 4⟩ ∧ (6 : Byte) = mine.station.id ∧ (ownFrame mine).goodFrame 2 6 ⟨.group, 4⟩ ∧
      (ownFrame mine).line.arbitration = .contending ∧ (cueHeard 1100).station.enables .peer = true ∧
      (cueHeard 1100).port.used + 2 ≤ 16 := by
  refine ⟨good_cueHeard 1100 (by decide), by decide, by decide, ⟨by decide, rfl, rfl, rfl, rfl, by decide⟩, rfl,
    ⟨by decide, rfl, rfl, rfl, rfl, by decide⟩, rfl, by decide, by decide⟩
theorem witness_CueOfferIsAnswered :
    addresses live.station ⟨.group, 4⟩ = true ∧ (cueHeard 1032).atLastCheckBit ∧ (cueHeard 1032).goodFrame 2 5 ⟨.group, 4⟩ ∧
      parseCue (cueHeard 1032).rxBody = some (body 1 1032) ∧ live.cues.find ⟨5, 1⟩ = none ∧
      distance 1032 1000 = live.station.setup.minLead ∧ distance 1031 1000 < live.station.setup.minLead ∧
      distance (1000 + 0x1000001) 1000 = 2 ^ 24 + 1 ∧ live.cues.held < 32 ∧
      (live.withCues busy.cues).cues.find ⟨5, 1⟩ = some (entry 5 1 1200) ∧
      parseCue (heard live 2 5 ⟨.group, 4⟩ [1]).rxBody = none ∧ (cueHeard 1032).station.enables .offerMissed = true ∧
      (cueHeard 1032).port.used + 2 ≤ 16 := by
  refine ⟨by decide, by decide, good_cueHeard 1032 (by decide), by decide, by decide, by decide, by decide, by decide, by decide,
    by decide, by decide, by decide, by decide⟩
theorem witness_OtherOffersAreAnswered_withdraw :
    let s := (heard (live.withCues busy.cues) 1 5 ⟨.group, 4⟩ [1])
    s.atLastCheckBit ∧ s.goodFrame 1 5 ⟨.group, 4⟩ ∧ addresses s.station ⟨.group, 4⟩ = true ∧ s.station.state = .active ∧
      s.rxBody = [1] ∧ s.cues.armed = [] ++ entry 5 1 1200 :: [entry 7 2 1300] ∧
      (∀ x ∈ ([] ++ [entry 7 2 1300] : List CueEntry), x.key ≠ ⟨5, 1⟩) ∧
      s.station.setup.minLead ≤ distance (entry 5 1 1200).fireTime s.clock.lineTime ∧
      (∀ e ∈ s.cues.armed, e.key ≠ ⟨5, 9⟩) ∧ (heard live 1 5 ⟨.group, 4⟩ []).rxBody.length ≠ 1 := by
  refine ⟨by decide, ⟨by decide, rfl, rfl, rfl, rfl, by decide⟩, by decide, rfl, by decide, rfl, by decide, by decide, by decide,
    by decide⟩
theorem witness_OtherOffersAreAnswered_missed :
    let s := heard (inStation (live.withCues busy.cues) .silent) 1 5 ⟨.group, 4⟩ [1]
    let u := heard (inStation live .listen) 1 5 ⟨.group, 4⟩ [1]
    let inside := (heard (live.withCues { busy.cues with armed := [entry 5 1 1031] }) 1 5 ⟨.group, 4⟩ [1])
    s.goodFrame 1 5 ⟨.group, 4⟩ ∧ s.station.state = .silent ∧ s.rxBody = [1] ∧
      s.cues.armed = [] ++ entry 5 1 1200 :: [entry 7 2 1300] ∧ s.port.used + 2 ≤ 16 ∧ s.station.enables .offerMissed = true ∧
      u.goodFrame 1 5 ⟨.group, 4⟩ ∧ u.station.state = .listen ∧ (∀ e ∈ u.cues.armed, e.key ≠ ⟨5, 1⟩) ∧
      distance (entry 5 1 1031).fireTime inside.clock.lineTime < inside.station.setup.minLead := by
  refine ⟨⟨by decide, rfl, rfl, rfl, rfl, by decide⟩, rfl, by decide, rfl, by decide, by decide,
    ⟨by decide, rfl, rfl, rfl, rfl, by decide⟩, rfl, by decide, by decide⟩
theorem witness_OtherOffersAreAnswered_own :
    let b := heard live 0 6 ⟨.group, 0⟩ (bytes4 900 ++ [2, 2])
    let m := ownFrame (heard live 3 6 ⟨.group, 4⟩ [7])
    b.goodFrame 0 6 ⟨.group, 0⟩ ∧ (6 : Byte) = b.station.id ∧ (ownFrame b).decoder.ownFrame = true ∧
      parseBeacon b.rxBody = some (900, 2, .reference) ∧ m.goodFrame 3 6 ⟨.group, 4⟩ ∧ m.rxBody = [7] := by
  refine ⟨⟨by decide, rfl, rfl, rfl, rfl, by decide⟩, rfl, rfl, by decide, ⟨by decide, rfl, rfl, rfl, rfl, by decide⟩, by decide⟩
theorem witness_OtherOffersAreAnswered_beacon :
    let s (code : Byte) := heard live 0 5 ⟨.group, 0⟩ (bytes4 900 ++ [code, 2])
    (s 2).atLastCheckBit ∧ (s 2).decoder.ownFrame = false ∧ (5 : Byte) ≠ (s 2).station.id ∧ (s 2).goodFrame 0 5 ⟨.group, 0⟩ ∧
      parseBeacon (s 2).rxBody = some (900, 2, .reference) ∧ (2 : Byte) = live.station.setup.periodCode ∧
      parseBeacon (s 3).rxBody = some (900, 3, .reference) ∧ parseBeacon (s 4).rxBody = none := by
  refine ⟨by decide, rfl, by decide, ⟨by decide, rfl, rfl, rfl, rfl, by decide⟩, by decide, by decide, by decide, by decide⟩
theorem witness_OtherOffersAreAnswered_message :
    let s (n : Nat) := heard (withNotices live n) 3 5 ⟨.group, 4⟩ [7]
    (s 14).goodFrame 3 5 ⟨.group, 4⟩ ∧ addresses (s 14).station ⟨.group, 4⟩ = true ∧ (s 14).rxBody ≠ [] ∧
      (s 14).port.used + 2 ≤ 16 ∧ 16 ≤ (s 16).port.used ∧ (inStation (s 14) .listen).station.state ≠ .active ∧
      (s 15).port.used = 15 ∧ ((s 15).peer 5).presence ≠ .present ∧ (s 15).station.enables .peer = true ∧
      (s 15).port.reservation = none ∧ (heard live 3 5 ⟨.group, 4⟩ []).rxBody = [] ∧
      (heard live 3 5 ⟨.group, 4⟩ []).rxCheck = (heard live 3 5 ⟨.group, 4⟩ []).decoder.checkAcc := by
  refine ⟨⟨by decide, rfl, rfl, rfl, rfl, by decide⟩, by decide, by decide, by decide, by decide, by decide, by decide, by decide,
    by decide, rfl, by decide, by decide⟩

/-! ### Witnesses: the line -/

theorem witness_StartConditionBeginsAFrame :
    let s := (withQueue [queuedCue] live).withSend { live.send with queue := [queuedCue], offered := .head }
    s.settled = true ∧ s.line.state = .idle ∧ s.send.offered ≠ .none ∧ s.send.queue = queuedCue :: [] ∧
      (live.withSend { live.send with slot := .queued, offered := .beacon }).settled = true := by decide
theorem witness_BitsAndArbitration :
    let s := live.withLine { live.line with state := .sending, role := .sender, arbitration := .contending, position := some 0,
                                            tx := [true, false] }
    let r := (live.withLine { live.line with state := .answering, position := some 49, frameLength := some 50 }).withDecoder
      { live.decoder with length := some 1 }
    let u := (withQueue [{ queuedCue with inFlight := true }] live).withWork { Work.none with arbLost := true }
    s.settled = true ∧ s.line.inFrame = true ∧ s.line.stretch ≠ .holding ∧ s.line.position = some 0 ∧ s.line.tx[0]? = some true ∧
      s.line.tx[1]? = some false ∧ r.settled = true ∧ r.line.inFrame = true ∧
      r.decoder.length.map frameLengthOf = some (49 + 1) ∧ u.work.arbLost = true ∧ u.send.slot ≠ .inFlight ∧
      queuedCue.retire = false ∧ (u.withSend { u.send with slot := .inFlight }).work.arbLost = true ∧
      (withQueue [{ queuedCue with inFlight := true, retire := true }] u).work.arbLost = true := by decide
theorem witness_PaceStretchAndSlots :
    let s := live.withLine { live.line with state := .sending, position := some 0, tx := [false] }
    let a (p : Nat) := (live.withLine { live.line with
      state := .answering, driving := true, position := some p, frameLength := some 50, halfPeriod := .high }).withDecoder
        { live.decoder with answer := some .take }
    s.settled = true ∧ s.line.state = .sending ∧ (a 47).settled = true ∧ (a 47).line.driving = true ∧ 47 + 3 = 50 ∧ 49 + 1 = 50 ∧
      (a 50).line.position = (a 50).line.frameLength ∧ (a 47).decoder.answer = some .take ∧ (a 47).line.heldEnd = none ∧
      (a 47).line.answered = false ∧
      ((a 47).withLine { (a 47).line with halfPeriod := .low, stretch := .holding }).settled = true ∧
      ((a 47).withLine { (a 47).line with halfPeriod := .low, stretch := .holding, answered := true }).settled = true := by decide
theorem witness_CueFrameEndsInItsOutcome :
    let s := (ended live .cueTable .receiver .low .high).withCues
      { busy.cues with provisional := some (entry 5 3 1250), offer := some ⟨.cue, ⟨5, 3⟩, .take, .newEntry⟩ }
    let own := (s.withLine { s.line with role := .sender, arbitration := .won })
    s.atEnd .low .high ∧ s.line.answered = true ∧ s.line.role = .receiver ∧ s.decoder.owner = .cueTable ∧
      s.station.dupPending = false ∧ s.station.leavePending = false ∧ s.cues.provisional = some (entry 5 3 1250) ∧
      own.atEnd .low .high ∧ own.port.used + 2 ≤ 16 ∧ own.station.enables .cueArmed = true :=
  ⟨by unfold State.atEnd; decide, by decide, by decide, by decide, by decide, by decide, by decide,
    by unfold State.atEnd; decide, by decide, by decide⟩
theorem witness_CueFrameEndsInItsOutcome_message :
    let s (veto : Level) := (ended live .hostPort .receiver .low veto).withPort
      { live.port with reservation := some ⟨5, ⟨.group, 4⟩⟩ }
    (s .high).atEnd .low .high ∧ (s .low).atEnd .low .low ∧ (s .high).decoder.owner = .hostPort ∧
      (s .high).port.reservation = some ⟨5, ⟨.group, 4⟩⟩ :=
  ⟨by unfold State.atEnd; decide, by unfold State.atEnd; decide, rfl, rfl⟩
theorem witness_CueFrameEndsInItsOutcome_marked :
    let e := { entry 7 2 1300 with withdrawPending := true }
    let s := (ended live .cueTable .receiver .low .low).withCues
      { busy.cues with armed := [entry 5 1 1200] ++ e :: [], offer := some ⟨.withdraw, ⟨7, 2⟩, .take, .marked⟩ }
    s.settled = true ∧ s.cues.armed = [entry 5 1 1200] ++ e :: [] ∧
      (∀ x ∈ ([entry 5 1 1200] ++ [] : List CueEntry), x.withdrawPending = false ∧ x.key ≠ e.key) := by decide
theorem witness_CueFrameEndsInItsOutcome_gone :
    let s := (ended live .cueTable .receiver .low .high).withCues
      { busy.cues with offer := some ⟨.withdraw, ⟨7, 9⟩, .take, .marked⟩ }
    let n := ended live .none .receiver .low .high
    s.settled = true ∧ (∀ e ∈ s.cues.armed, e.withdrawPending = false) ∧ n.settled = true ∧ n.decoder.owner = .none ∧
      n.decoder.owner ≠ .lineClock := by decide
theorem witness_OwnAttemptEndsOrReturns :
    let s := withQueue [{ queuedCue with inFlight := true }] (ended live .cueTable .sender .high .high)
    s.atEnd .high .high ∧ s.line.role = .sender ∧ s.line.arbitration = .won ∧ s.line.answered = true ∧
      s.decoder.owner ≠ .lineClock ∧ s.send.slot ≠ .inFlight ∧ s.send.queue = { queuedCue with inFlight := true } :: [] ∧
      2 ≤ queuedCue.attemptsLeft ∧ s.port.used + 2 ≤ 16 :=
  ⟨by unfold State.atEnd; decide, by decide, by decide, by decide, by decide, by decide, by decide, by decide, by decide⟩
theorem witness_BeaconFrameEndsInItsOutcome :
    let own := (ended live .lineClock .sender .low .high).withSend { live.send with slot := .inFlight }
    let heard (sender : Byte) (time : Time) := (ended live .lineClock .receiver .low .high).withClock
      { live.clock with beacon := some ⟨sender, time, .reference, 900⟩ }
    own.settled = true ∧ own.decoder.ownFrame = true ∧ own.clock.state ≠ .reference ∧ (heard 5 917).settled = true ∧
      (heard 5 917).decoder.ownFrame = false ∧ (heard 5 917).line.role = .receiver ∧
      (917 - 900 - BitVec.ofInt 32 0 : Time).toInt = 17 ∧ (884 - 900 - BitVec.ofInt 32 0 : Time).toInt = -16 ∧
      (5 : Byte).toNat < (7 : Byte).toNat ∧ (heard 5 917).clock.beaconPeriod ∈ [256, 512, 1024, 2048] := by decide
theorem witness_BeaconFrameEndsInItsOutcome_end : (ended live .lineClock .receiver .low .high).atEnd .low .high := by
  unfold State.atEnd; decide
theorem witness_FrameEndTakesWhatWaited :
    let s := (ended live .cueTable .receiver .high .high)
    let early := (s.withLine { s.line with answered := false, heldEnd := none }).withDecoder { s.decoder with answer := some .none }
    (s.withStation { s.station with leavePending := true }).atEnd .high .high ∧ s.line.answered = true ∧
      early.atEnd .high .high ∧ early.line.answered = false ∧ early.line.role = .receiver ∧ early.line.driving = false ∧
      early.decoder.answer = some .none :=
  ⟨by unfold State.atEnd; decide, by decide, by unfold State.atEnd; decide, by decide, by decide, by decide, by decide⟩
theorem witness_IdleGapAndRecovery :
    (inLine live .waitIdle).settled = true ∧ (inLine live .waitIdle).line.heldEnd = none ∧ live.settled = true ∧
      (inLine live .recover).settled = true := by decide
theorem witness_FaultsAbortTheFrame :
    let s := withQueue [{ queuedCue with inFlight := true }] (ended live .cueTable .sender .high .high)
    let marked := { queuedCue with inFlight := true, retire := true }
    s.settled = true ∧ s.line.inFrame = true ∧ s.line.paceWire = .high ∧ (s.line.lowTimer .data).reported = false ∧
      (withQueue [marked] s).settled = true ∧ 2 ≤ marked.attemptsLeft ∧ s.port.used + 3 ≤ 16 ∧
      (s.withStation { s.station with dupPending := true }).settled = true ∧
      s.station.dupPending = false ∧ s.station.leavePending = false ∧ (s.withLine { s.line with paceWire := .low }).settled = true ∧
      live.line.state ≠ .off ∧ live.line.inFrame = false ∧ s.station.enables .lineError = true ∧
      (live.withLine (live.line.stuck .pace)).settled = true := by decide
theorem witness_FaultsAbortTheFrame_raises :
    (ended live .cueTable .sender .high .high).raises (.stuckLow ⟨.data, false⟩) .stuckLow (some .data) ∧
      (ended live .cueTable .sender .high .high).raises .stall .stall none ∧
      (ended live .cueTable .sender .high .high).raises .framing .framing none ∧
      (ended live .cueTable .sender .high .high).raises (.startCondition true) .framing none ∧
      (inLine live .receiving).raises .endCondition .framing none ∧
      (ended live .cueTable .sender .high .high).raises .paceFall .framing none :=
  ⟨⟨rfl, .inr (.inr (.inr ⟨.data, false, rfl, .inr rfl, rfl, rfl⟩))⟩, ⟨rfl, .inr (.inl ⟨rfl, rfl, rfl, rfl⟩)⟩,
    ⟨rfl, .inl ⟨.inl rfl, rfl, rfl⟩⟩, ⟨rfl, .inl ⟨.inr (.inl ⟨true, rfl⟩), rfl, rfl⟩⟩,
    ⟨rfl, .inl ⟨.inr (.inr (.inl ⟨rfl, by decide⟩)), rfl, rfl⟩⟩, ⟨rfl, .inl ⟨.inr (.inr (.inr ⟨rfl, rfl, rfl⟩)), rfl, rfl⟩⟩⟩

end Sys2Proof.Tests
end

section
/-! SUPPORT. The host's two commands on the cue table: LIST_CUE, which reads one armed entry (R15), and DROP_CUE, which removes one
(R16). First what a key's lookup and its removal give on a list that holds the key once, then each command's answer case by case. -/

namespace Sys2Proof.Machine

/-! ### An armed entry by its key -/

/-- R13: where one entry has the key, it alone leaves, and the others keep their order. -/
theorem removeKey_of_unique (k : Key) (before after : List CueEntry) (e : CueEntry) (he : e.key = k)
    (hu : ∀ x ∈ before ++ after, x.key ≠ k) : removeKey k (before ++ e :: after) = before ++ after := by
  have hothers : (before ++ after).filter (fun x => x.key != k) = before ++ after :=
    List.filter_eq_self.2 fun x hx => by simp [hu x hx]
  simpa [removeKey, he] using hothers

/-- The lookup finds the first entry with the key. -/
theorem CueTable.findArmed_of_split (t : CueTable) (k : Key) (before after : List CueEntry) (e : CueEntry)
    (ht : t.armed = before ++ e :: after) (he : e.key = k) (hb : ∀ x ∈ before, x.key ≠ k) : t.findArmed k = some e := by
  rw [CueTable.findArmed, ht, List.find?_eq_some_iff_append]
  exact ⟨by simp [he], before, after, rfl, fun x hx => by simp [hb x hx]⟩

theorem CueTable.findArmed_eq_none (t : CueTable) (k : Key) : t.findArmed k = none ↔ ∀ e ∈ t.armed, e.key ≠ k := by
  simp [CueTable.findArmed]

/-- The provisional entry has the key, as DROP_CUE tests it. -/
theorem provisionalKey_eq_some (t : CueTable) (k : Key) :
    t.provisional.map (fun e => e.key) = some k ↔ ∃ e, t.provisional = some e ∧ e.key = k := Option.map_eq_some_iff

/-- R18: the repeat count, 0 for a one-shot entry. -/
theorem CueEntry.count_eq (e : CueEntry) : e.count = (e.rep.map (fun r => r.count)).getD 0 := by
  cases h : e.rep <;> simp [CueEntry.count, h]

/-! ### LIST_CUE (R15) -/

theorem originByte_eq (o : Origin) : originByte o = if o = .own then 1 else 0 := by
  cases o <;> rfl

/-- A port that takes a command answers LIST_CUE at its one argument byte. -/
theorem exec_listCue (s : State) (index : Byte) (hs : s.Ready) :
    exec (.listCue [index]) s = .next (answerCommand (some .listCue) (runListCue index s).1 (runListCue index s).2) :=
  congrArg Host.Outcome.next
    (shapedCommand_of_taken .listCue (exactly 1) (fun xs => runListCue (byteAt xs 0)) [index] s hs (exactly_of_length 1 _ rfl))

theorem runListCue_of_halted (s : State) (index : Byte) (h : s.station.state = .halted) :
    runListCue index s = (refusal .wrongState, s) := if_pos h

theorem runListCue_of_lt (s : State) (index : Byte) (h : s.station.state ≠ .halted) (hi : index.toNat < s.cues.armed.length) :
    runListCue index s =
      (okWith (byteOf s.cues.armed.length :: (bytes4 s.clock.lineTime ++ s.cues.armed[index.toNat].bytes)), s) := by
  simp [runListCue, h, hi]

theorem runListCue_of_ge (s : State) (index : Byte) (h : s.station.state ≠ .halted) (hi : s.cues.armed.length ≤ index.toNat) :
    runListCue index s = (⟨.notFound, byteOf s.cues.armed.length :: bytes4 s.clock.lineTime⟩, s) := by
  simp [runListCue, h, hi]

/-! ### DROP_CUE (R16) -/

theorem stationIdOk_iff (b : Byte) : stationIdOk b = true ↔ 1 ≤ b.toNat ∧ b.toNat ≤ 62 := by
  simp [stationIdOk]

theorem stationIdOk_eq_false_iff (b : Byte) : stationIdOk b = false ↔ b = 0 ∨ 63 ≤ b.toNat := by
  rw [← Bool.not_eq_true, stationIdOk_iff]
  bv_omega

/-- A port that takes a command answers DROP_CUE at its two argument bytes. -/
theorem exec_dropCue (s : State) (issuer serial : Byte) (hs : s.Ready) :
    exec (.dropCue [issuer] [serial]) s =
      .next (answerCommand (some .dropCue) (runDropCue issuer serial s).1 (runDropCue issuer serial s).2) :=
  congrArg Host.Outcome.next
    (shapedCommand_of_taken .dropCue (exactly 2) (fun xs => runDropCue (byteAt xs 0) (byteAt xs 1)) [issuer, serial] s hs
      (exactly_of_length 2 _ rfl))

theorem runDropCue_of_halted (s : State) (issuer serial : Byte) (h : s.station.state = .halted) :
    runDropCue issuer serial s = (refusal .wrongState, s) := if_pos h

theorem runDropCue_of_badIssuer (s : State) (issuer serial : Byte) (h : s.station.state ≠ .halted)
    (hi : stationIdOk issuer = false) : runDropCue issuer serial s = (refusal .form, s) := by
  rw [runDropCue, if_neg h, if_pos hi]

section
variable {s : State} {issuer serial : Byte} (h : s.station.state ≠ .halted) (hi : stationIdOk issuer = true)
include h hi

theorem runDropCue_of_provisional (hp : ∃ e, s.cues.provisional = some e ∧ e.key = ⟨issuer, serial⟩) :
    runDropCue issuer serial s = (refusal .busy, s) := by
  rw [runDropCue, if_neg h, if_neg (by simp [hi]), if_pos ((provisionalKey_eq_some s.cues _).2 hp)]

variable (hp : ∀ e, s.cues.provisional = some e → e.key ≠ ⟨issuer, serial⟩)
include hp

/-- Where the provisional entry has another key, the lookup among the armed entries decides. -/
theorem runDropCue_of_notProvisional :
    runDropCue issuer serial s =
      (s.cues.findArmed ⟨issuer, serial⟩).elim (refusal .notFound, s) fun e =>
        (okWith [], notify (.cueRemoved e.key .dropped e.fireTime e.count e.origin)
          (s.withCues { s.cues with armed := removeKey e.key s.cues.armed })) := by
  have hprov : ¬ s.cues.provisional.map (fun e => e.key) = some ⟨issuer, serial⟩ := by
    simpa [provisionalKey_eq_some] using hp
  rw [runDropCue, if_neg h, if_neg (by simp [hi]), if_neg hprov]
  cases s.cues.findArmed ⟨issuer, serial⟩ <;> rfl

theorem runDropCue_of_notArmed (ha : ∀ e ∈ s.cues.armed, e.key ≠ ⟨issuer, serial⟩) :
    runDropCue issuer serial s = (refusal .notFound, s) := by
  rw [runDropCue_of_notProvisional h hi hp, (s.cues.findArmed_eq_none _).2 ha, Option.elim_none]

/-- The one armed entry with the key leaves, and CUE_REMOVED is queued for it. -/
theorem runDropCue_of_armed {before after : List CueEntry} {e : CueEntry} (ha : s.cues.armed = before ++ e :: after)
    (he : e.key = ⟨issuer, serial⟩) (hu : ∀ x ∈ before ++ after, x.key ≠ ⟨issuer, serial⟩) :
    runDropCue issuer serial s =
      (okWith [], notify (.cueRemoved ⟨issuer, serial⟩ .dropped e.fireTime e.count e.origin)
        (s.withCues { s.cues with armed := before ++ after })) := by
  have hfind : s.cues.findArmed ⟨issuer, serial⟩ = some e :=
    s.cues.findArmed_of_split _ before after e ha he fun x hx => hu x (List.mem_append_left _ hx)
  rw [runDropCue_of_notProvisional h hi hp, hfind, Option.elim_some, he, ha,
    removeKey_of_unique _ before after e he hu]

end

/-! ### The statements -/

/-- Settles O34: the five cases of DROP_CUE (R16). -/
theorem dropCueRemovesOneEntry : Obligations.DropCueRemovesOneEntry := by
  intro s issuer serial hs
  rw [exec_dropCue s issuer serial hs]
  refine ⟨fun h => ?halted, fun h hb => ?badIssuer, fun h h1 h62 hp => ?provisional, fun h h1 h62 hp ha => ?notArmed,
    fun before after e h h1 h62 hp ha he hu => ?armed⟩
  case halted => rw [runDropCue_of_halted s issuer serial h]; rfl
  case badIssuer => rw [runDropCue_of_badIssuer s issuer serial h ((stationIdOk_eq_false_iff issuer).2 hb)]; rfl
  case provisional => rw [runDropCue_of_provisional h ((stationIdOk_iff issuer).2 ⟨h1, h62⟩) hp]; rfl
  case notArmed => rw [runDropCue_of_notArmed h ((stationIdOk_iff issuer).2 ⟨h1, h62⟩) hp ha]; rfl
  case armed => rw [runDropCue_of_armed h ((stationIdOk_iff issuer).2 ⟨h1, h62⟩) hp ha he hu, e.count_eq]; rfl

/-- Settles O31: the three cases of LIST_CUE (R15). -/
theorem listCueReadsOneEntry : Obligations.ListCueReadsOneEntry := by
  intro s index hs
  rw [exec_listCue s index hs]
  refine ⟨fun h => ?halted, fun h hi => ?found, fun h hi => ?notFound⟩
  case halted => rw [runListCue_of_halted s index h]; rfl
  case found => rw [runListCue_of_lt s index h hi, CueEntry.bytes, originByte_eq]; rfl
  case notFound => rw [runListCue_of_ge s index h hi]; rfl

end Sys2Proof.Machine
end

section
/-! SUPPORT. CUE bodies (R26, Formats): the words and bytes of each field, then each reader of a CUE body told by the bytes it reads:
it answers a field exactly at the bytes of a well-formed one. -/

namespace Sys2Proof.Machine

/-! ### Words and their bytes -/

theorem bytes2_eq_iff (w : Word16) (hi lo : Byte) : bytes2 w = [hi, lo] ↔ word2 hi lo = w := by
  simp only [bytes2, word2, List.cons.injEq, and_true]
  grind

theorem bytes4_eq_iff (t : Time) (b3 b2 b1 b0 : Byte) :
    bytes4 t = [b3, b2, b1, b0] ↔ word4 b3 b2 b1 b0 = t := by
  simp only [bytes4, word4, List.cons.injEq, and_true]
  grind

theorem exists_bytes2 (w : Word16) : ∃ hi lo, bytes2 w = [hi, lo] ∧ word2 hi lo = w :=
  ⟨_, _, rfl, (bytes2_eq_iff w _ _).1 rfl⟩

theorem exists_word4 (t : Time) : ∃ b3 b2 b1 b0, word4 b3 b2 b1 b0 = t :=
  ⟨_, _, _, _, (bytes4_eq_iff t _ _ _ _).1 rfl⟩

/-- The two fields of a width word (Formats). -/
theorem widthWord_eq_iff (w : BitVec 12) (v : Word16) :
    v = widthWord w ↔ v.extractLsb' 12 4 = 0 ∧ v.extractLsb' 0 12 = w := by
  unfold widthWord
  grind

theorem widthWord_eq_zero_iff (w : BitVec 12) : widthWord w = 0 ↔ w = 0 := by
  rw [eq_comm, widthWord_eq_iff]
  exact ⟨fun h => h.2.symm, fun h => ⟨rfl, h.symm⟩⟩

theorem extractLsb'_word2_high (hi lo : Byte) : (word2 hi lo).extractLsb' 12 4 = hi.extractLsb' 4 4 := by
  unfold word2
  grind

theorem actionPoint_eq_iff (v : Word16) (p : Fin 16) : actionPoint v = p ↔ v.extractLsb' 9 4 = BitVec.ofNat 4 p.val := by
  rw [Fin.ext_iff, ← BitVec.toNat_inj, BitVec.toNat_ofNat, Nat.mod_eq_of_lt p.isLt, actionPoint, Fin.val_ofNat,
    Nat.mod_eq_of_lt (BitVec.isLt _)]

/-- The three fields of an action word (Formats). -/
theorem Action.word_eq_iff (a : Action) (v : Word16) :
    v = a.word ↔ v.extractLsb' 13 3 = a.op.code ∧ actionPoint v = a.point ∧ v.extractLsb' 0 9 = 0 := by
  rw [actionPoint_eq_iff, Action.word]
  grind

/-! ### Widths, repeat parts and actions -/

theorem parseWidth_eq_some_iff (hi lo : Byte) (w : BitVec 12) :
    parseWidth hi lo = some w ↔ w ≠ 0 ∧ bytes2 (widthWord w) = [hi, lo] := by
  have hfields := widthWord_eq_iff w (word2 hi lo)
  have hzero := widthWord_eq_zero_iff w
  rw [bytes2_eq_iff, parseWidth, ← extractLsb'_word2_high hi lo]
  grind

theorem parseRepeat_eq_some_iff (ph pl count : Byte) (r : Repeat) :
    parseRepeat ph pl count = some r ↔
      r.period ≠ 0 ∧ r.count ≠ 0 ∧ repeatBytes (some r) = [ph, pl, count] := by
  obtain ⟨period, c⟩ := r
  have hbytes : repeatBytes (some ⟨period, c⟩) = [ph, pl, count] ↔ word2 ph pl = period ∧ count = c := by
    rw [← bytes2_eq_iff]
    simp [repeatBytes, bytes2, eq_comm, and_assoc]
  rw [hbytes, parseRepeat]
  grind

/-- R26: one well-formed action is read off its own bytes. -/
theorem parseActions_bytes_append (a : Action) (ha : a.ok = true) (n : Nat) (rest : List Byte) :
    parseActions (n + 1) (a.bytes ++ rest) = (parseActions n rest).map (a :: ·) := by
  obtain ⟨hi, lo, hbytes, hword⟩ := exists_bytes2 a.word
  obtain ⟨hop, hpoint, hzero⟩ := (a.word_eq_iff _).1 hword
  obtain ⟨op, point⟩ := a
  cases op with
  | raise => simp_all [Action.bytes, parseActions, Op.code]
  | lower => simp_all [Action.bytes, parseActions, Op.code]
  | invert => simp_all [Action.bytes, parseActions, Op.code]
  | pulseHigh w =>
    have hwidth := (parseWidth_eq_some_iff _ _ w).2 ⟨by simpa [Action.ok] using ha, rfl⟩
    simp_all [Action.bytes, parseActions, Op.code, bytes2]
  | pulseLow w =>
    have hwidth := (parseWidth_eq_some_iff _ _ w).2 ⟨by simpa [Action.ok] using ha, rfl⟩
    simp_all [Action.bytes, parseActions, Op.code, bytes2]

/-- The bytes begin with the bytes of a well-formed action, and the rest is read as `n` more. -/
def BeginsWithAction (n : Nat) (bytes : List Byte) (as : List Action) : Prop :=
  ∃ a rest as', a.ok = true ∧ bytes = a.bytes ++ rest ∧ parseActions n rest = some as' ∧ as = a :: as'

theorem beginsWithAction_of_map {n : Nat} {as : List Action} (a : Action) (rest : List Byte) {bytes : List Byte}
    (h : (parseActions n rest).map (a :: ·) = some as) (ha : a.ok = true) (hbytes : a.bytes ++ rest = bytes) :
    BeginsWithAction n bytes as := by
  obtain ⟨as', hread, rfl⟩ := Option.map_eq_some_iff.1 h
  exact ⟨a, rest, as', ha, hbytes.symm, hread, rfl⟩

/-- R26: where a run of actions is read, its first action is well formed and stands there as its bytes. -/
theorem beginsWithAction_of_parseActions (n : Nat) (bytes : List Byte) (as : List Action)
    (h : parseActions (n + 1) bytes = some as) : BeginsWithAction n bytes as := by
  match bytes with
  | [] => simp [parseActions] at h
  | [_] => simp [parseActions] at h
  | hi :: lo :: rest =>
    by_cases hspare : (word2 hi lo).extractLsb' 0 9 = 0
    case neg => simp only [parseActions, ne_eq, hspare, not_false_eq_true, if_true, reduceCtorEq] at h
    have hword (op : Op) (hop : (word2 hi lo).extractLsb' 13 3 = op.code) :
        bytes2 (Action.word ⟨op, actionPoint (word2 hi lo)⟩) = [hi, lo] :=
      (bytes2_eq_iff _ hi lo).2 ((Action.word_eq_iff _ _).2 ⟨hop, rfl, hspare⟩)
    simp only [parseActions, hspare, ne_eq, not_true_eq_false, if_false] at h
    split at h
    next hop => exact beginsWithAction_of_map ⟨.raise, _⟩ rest h rfl (by simp [Action.bytes, hword .raise hop])
    split at h
    next hop => exact beginsWithAction_of_map ⟨.lower, _⟩ rest h rfl (by simp [Action.bytes, hword .lower hop])
    split at h
    next hop => exact beginsWithAction_of_map ⟨.invert, _⟩ rest h rfl (by simp [Action.bytes, hword .invert hop])
    split at h
    case isFalse => cases h
    next hpulse =>
    obtain _ | ⟨wh, _ | ⟨wl, rest'⟩⟩ := rest
    · cases h
    · cases h
    cases hwidth : parseWidth wh wl with
    | none => simp [hwidth] at h
    | some w =>
      obtain ⟨hne, hbytes⟩ := (parseWidth_eq_some_iff wh wl w).1 hwidth
      rcases hpulse with hhigh | hlow
      · refine beginsWithAction_of_map ⟨.pulseHigh w, actionPoint (word2 hi lo)⟩ rest' ?_ (by simpa [Action.ok] using hne) ?_
        · simpa [hwidth, hhigh] using h
        · simp [Action.bytes, hword (.pulseHigh w) hhigh, hbytes]
      · refine beginsWithAction_of_map ⟨.pulseLow w, actionPoint (word2 hi lo)⟩ rest' ?_ (by simpa [Action.ok] using hne) ?_
        · simpa [hwidth, hlow] using h
        · simp [Action.bytes, hword (.pulseLow w) hlow, hbytes]

/-- R26: exactly `n` actions are read exactly at the bytes of `n` well-formed actions. -/
theorem parseActions_eq_some_iff (n : Nat) (bytes : List Byte) (as : List Action) :
    parseActions n bytes = some as ↔ as.length = n ∧ as.all Action.ok = true ∧ actionsBytes as = bytes := by
  constructor
  · intro h
    induction n generalizing bytes as with
    | zero =>
      cases bytes with
      | nil => simp_all [parseActions, actionsBytes]
      | cons b bytes => simp [parseActions] at h
    | succ n ih =>
      obtain ⟨a, rest, as', ha, rfl, hrest, rfl⟩ := beginsWithAction_of_parseActions n bytes as h
      obtain ⟨hlen, hok, hbytes⟩ := ih rest as' hrest
      simp_all [actionsBytes]
  · rintro ⟨rfl, hok, rfl⟩
    induction as with
    | nil => rfl
    | cons a as ih =>
      obtain ⟨ha, has⟩ : a.ok = true ∧ as.all Action.ok = true := by simpa using hok
      rw [actionsBytes, List.flatMap_cons, List.length_cons, parseActions_bytes_append a ha, ← actionsBytes, ih has,
        Option.map_some]

/-! ### The control byte and the plan -/

theorem controlOk_iff (c : Byte) :
    controlOk c = true ↔ c.extractLsb' 3 4 = 0 ∧ 1 ≤ (c.extractLsb' 0 3).toNat ∧ (c.extractLsb' 0 3).toNat ≤ 4 := by
  simp [controlOk, and_assoc]

/-- A byte with its spare bits zero is its repeat flag and its count. -/
theorem eq_flag_or_count (c : Byte) (h : c.extractLsb' 3 4 = 0) :
    (if c.getLsbD 7 then 0x80#8 else 0#8) ||| BitVec.ofNat 8 (c.extractLsb' 0 3).toNat = c := by
  decide +revert

/-- The fields of a control byte that counts 1 to 4 actions (R26, Formats). -/
theorem controlByte_eq_iff (rep : Option Repeat) (n : Nat) (c : Byte) (h1 : 1 ≤ n) (h4 : n ≤ 4) :
    controlByte rep n = c ↔ controlOk c = true ∧ c.getLsbD 7 = rep.isSome ∧ (c.extractLsb' 0 3).toNat = n := by
  constructor
  · rintro rfl
    unfold controlByte
    generalize rep.isSome = flag
    interval_cases n <;> decide +revert
  · rintro ⟨hok, hflag, rfl⟩
    obtain ⟨hspare, -⟩ := (controlOk_iff c).1 hok
    rw [controlByte, ← hflag, eq_flag_or_count c hspare]

/-- R26: 1 to 4 actions, and no width, period or count of 0. -/
def PlanOk (rep : Option Repeat) (as : List Action) : Prop :=
  1 ≤ as.length ∧ as.length ≤ 4 ∧ as.all Action.ok = true ∧ ∀ r, rep = some r → r.period ≠ 0 ∧ r.count ≠ 0

theorem CueBody.ok_iff (b : CueBody) :
    b.ok = true ↔ PlanOk b.rep b.actions ∧ (encodeCue b).length ≤ Config.bodyMax := by
  cases hrep : b.rep <;> simp [CueBody.ok, PlanOk, hrep, and_assoc]

theorem planBytes_none (as : List Action) :
    planBytes none as = controlByte none as.length :: actionsBytes as := rfl

theorem planBytes_some (r : Repeat) (as : List Action) :
    planBytes (some r) as =
      controlByte (some r) as.length :: r.period.extractLsb' 8 8 :: r.period.extractLsb' 0 8 :: r.count :: actionsBytes as :=
  rfl

section
variable {c : Byte} (hc : controlOk c = true)
include hc

theorem parsePlan_of_noRepeat (hflag : c.getLsbD 7 = false) (rest : List Byte) :
    parsePlan (c :: rest) = (parseActions (c.extractLsb' 0 3).toNat rest).map (fun as => (none, as)) := by
  simp only [parsePlan, hc, hflag, if_true, Bool.false_eq_true, if_false]

theorem parsePlan_of_repeat (hflag : c.getLsbD 7 = true) (ph pl count : Byte) (rest : List Byte) :
    parsePlan (c :: ph :: pl :: count :: rest) = (parseRepeat ph pl count).bind fun r =>
      (parseActions (c.extractLsb' 0 3).toNat rest).map (fun as => (some r, as)) := by
  simp only [parsePlan, hc, hflag, if_true]
  cases parseRepeat ph pl count <;> rfl

end

/-- A plan is read off its own bytes. -/
theorem parsePlan_planBytes (rep : Option Repeat) (as : List Action) (h : PlanOk rep as) :
    parsePlan (planBytes rep as) = some (rep, as) := by
  obtain ⟨h1, h4, hok, hrep⟩ := h
  obtain ⟨hcontrol, hflag, hcount⟩ := (controlByte_eq_iff rep as.length _ h1 h4).1 rfl
  have hactions := (parseActions_eq_some_iff as.length (actionsBytes as) as).2 ⟨rfl, hok, rfl⟩
  cases rep with
  | none => rw [planBytes_none, parsePlan_of_noRepeat hcontrol hflag, hcount, hactions]; rfl
  | some r =>
    obtain ⟨hperiod, hcnt⟩ := hrep r rfl
    have hrepeat := (parseRepeat_eq_some_iff _ _ _ r).2 ⟨hperiod, hcnt, rfl⟩
    rw [planBytes_some, parsePlan_of_repeat hcontrol hflag, hrepeat, hcount, hactions]
    rfl

/-- What is read as a plan is the bytes of a well-formed one. -/
theorem planBytes_of_parsePlan (plan : List Byte) (rep : Option Repeat) (as : List Action)
    (h : parsePlan plan = some (rep, as)) : PlanOk rep as ∧ planBytes rep as = plan := by
  match plan with
  | [] => cases h
  | c :: rest =>
    by_cases hcontrol : controlOk c = true
    case neg => simp [parsePlan, hcontrol] at h
    obtain ⟨-, h1, h4⟩ := (controlOk_iff c).1 hcontrol
    have hplan (rest' : List Byte) (hread : parseActions (c.extractLsb' 0 3).toNat rest' = some as)
        (hflag : c.getLsbD 7 = rep.isSome) (hrep : ∀ r, rep = some r → r.period ≠ 0 ∧ r.count ≠ 0)
        (hbytes : repeatBytes rep ++ rest' = rest) : PlanOk rep as ∧ planBytes rep as = c :: rest := by
      obtain ⟨hlen, hok, rfl⟩ := (parseActions_eq_some_iff _ rest' as).1 hread
      rw [← hlen] at h1 h4
      rw [planBytes, (controlByte_eq_iff rep as.length c h1 h4).2 ⟨hcontrol, hflag, hlen.symm⟩, hbytes]
      exact ⟨⟨h1, h4, hok, hrep⟩, rfl⟩
    cases hflag : c.getLsbD 7 with
    | false =>
      rw [parsePlan_of_noRepeat hcontrol hflag] at h
      obtain ⟨as', hread, heq⟩ := Option.map_eq_some_iff.1 h
      cases heq
      exact hplan rest hread hflag nofun rfl
    | true =>
      obtain _ | ⟨ph, _ | ⟨pl, _ | ⟨count, rest'⟩⟩⟩ := rest
      iterate 3 simp only [parsePlan, hcontrol, hflag, if_true, reduceCtorEq] at h
      rw [parsePlan_of_repeat hcontrol hflag] at h
      obtain ⟨r, hrepeat, hmap⟩ := Option.bind_eq_some_iff.1 h
      obtain ⟨as', hread, heq⟩ := Option.map_eq_some_iff.1 hmap
      cases heq
      obtain ⟨hperiod, hcnt, hbytes⟩ := (parseRepeat_eq_some_iff ph pl count r).1 hrepeat
      exact hplan rest' hread hflag (by rintro _ ⟨⟩; exact ⟨hperiod, hcnt⟩) (by simp [hbytes])

theorem parsePlan_eq_some_iff (plan : List Byte) (rep : Option Repeat) (as : List Action) :
    parsePlan plan = some (rep, as) ↔ PlanOk rep as ∧ planBytes rep as = plan := by
  refine ⟨planBytes_of_parsePlan plan rep as, ?_⟩
  rintro ⟨hok, rfl⟩
  exact parsePlan_planBytes rep as hok

/-! ### The body -/

theorem encodeCue_eq_cons_iff (b : CueBody) (serial f3 f2 f1 f0 : Byte) (plan : List Byte) :
    encodeCue b = serial :: f3 :: f2 :: f1 :: f0 :: plan ↔
      b.serial = serial ∧ word4 f3 f2 f1 f0 = b.fireTime ∧ planBytes b.rep b.actions = plan := by
  rw [← bytes4_eq_iff]
  simp [encodeCue, bytes4, and_assoc]

/-- R26: a body is read as a CUE exactly at the bytes of a well-formed one. -/
theorem parseCue_eq_some_iff (bytes : List Byte) (b : CueBody) :
    parseCue bytes = some b ↔ b.ok = true ∧ encodeCue b = bytes := by
  rw [CueBody.ok_iff]
  constructor
  · intro h
    match bytes with
    | [] | [_] | [_, _] | [_, _, _] | [_, _, _, _] => simp [parseCue] at h
    | serial :: f3 :: f2 :: f1 :: f0 :: plan =>
      rw [parseCue, Option.ite_none_right_eq_some] at h
      obtain ⟨hlen, hread⟩ := h
      obtain ⟨p, hplan, rfl⟩ := Option.map_eq_some_iff.1 hread
      obtain ⟨hok, hbytes⟩ := (parsePlan_eq_some_iff plan p.1 p.2).1 hplan
      have hencode := (encodeCue_eq_cons_iff ⟨serial, _, p.1, p.2⟩ serial f3 f2 f1 f0 plan).2 ⟨rfl, rfl, hbytes⟩
      exact ⟨⟨hok, hencode ▸ hlen⟩, hencode⟩
  · rintro ⟨⟨hok, hlen⟩, rfl⟩
    obtain ⟨f3, f2, f1, f0, hword⟩ := exists_word4 b.fireTime
    have hread := (parsePlan_eq_some_iff _ b.rep b.actions).2 ⟨hok, rfl⟩
    have hencode : encodeCue b = b.serial :: f3 :: f2 :: f1 :: f0 :: planBytes b.rep b.actions :=
      (encodeCue_eq_cons_iff b b.serial f3 f2 f1 f0 _).2 ⟨rfl, hword, rfl⟩
    rw [hencode] at hlen ⊢
    rw [parseCue, if_pos hlen, hread, Option.map_some, hword]

/-! ### Lengths -/

/-- PULSE_HIGH and PULSE_LOW carry a width word (R26). -/
def Op.isPulse : Op → Bool
  | .pulseHigh _ => true
  | .pulseLow _ => true
  | _ => false

theorem Action.length_bytes (a : Action) : a.bytes.length = 2 + if a.op.isPulse then 2 else 0 := by
  rcases a with ⟨op, point⟩
  cases op <;> rfl

theorem length_actionsBytes (as : List Action) :
    (actionsBytes as).length = 2 * as.length + 2 * (as.filter (fun a => a.op.isPulse)).length := by
  induction as with
  | nil => rfl
  | cons a as ih =>
    rw [actionsBytes, List.flatMap_cons, List.length_append, ← actionsBytes, ih, a.length_bytes, List.filter_cons]
    cases a.op.isPulse <;> simp <;> omega

theorem length_repeatBytes (rep : Option Repeat) : (repeatBytes rep).length = if rep.isSome then 3 else 0 := by
  cases rep <;> rfl

/-- R26: the expected length of a body. -/
theorem length_encodeCue (b : CueBody) :
    (encodeCue b).length = 6 + (if b.rep.isSome then 3 else 0) + 2 * b.actions.length +
      2 * (b.actions.filter (fun a => a.op.isPulse)).length := by
  have hparts : (encodeCue b).length = 6 + (repeatBytes b.rep).length + (actionsBytes b.actions).length := by
    simp [encodeCue, planBytes, bytes4]
    omega
  rw [hparts, length_repeatBytes, length_actionsBytes]
  omega

/-- R26: without a repeat part a well-formed body has at most 22 bytes, and with one its length is odd. -/
theorem length_encodeCue_ne_24 (b : CueBody) (h : b.ok = true) : (encodeCue b).length ≠ 24 := by
  obtain ⟨⟨-, h4, -⟩, -⟩ := b.ok_iff.1 h
  have hpulses := List.length_filter_le (fun a : Action => a.op.isPulse) b.actions
  rw [length_encodeCue]
  split <;> omega

theorem bodyFireTime_of_short (bytes : List Byte) (h : bytes.length < 5) : bodyFireTime bytes = 0 := by
  match bytes with
  | [] | [_] | [_, _] | [_, _, _] | [_, _, _, _] => rfl
  | _ :: _ :: _ :: _ :: _ :: _ => simp at h; omega

/-- Settles O11: the bodies that are read as a CUE, their lengths, and what a short body reports (R26). -/
theorem cueBodyIsWellFormedExactly : Obligations.CueBodyIsWellFormedExactly := by
  refine ⟨parseCue_eq_some_iff, length_encodeCue, fun bytes h24 => ?no24, rfl, bodyFireTime_of_short⟩
  case no24 =>
    refine Option.eq_none_iff_forall_ne_some.2 fun b hread => ?_
    obtain ⟨hok, rfl⟩ := (parseCue_eq_some_iff bytes b).1 hread
    exact length_encodeCue_ne_24 b hok h24

end Sys2Proof.Machine
end

section
/-! SUPPORT. SET_POINTS (R48): owners and levels of single points, what the new levels word says of each point, and the command's
answer where it is refused and where it is taken. -/

namespace Sys2Proof.Machine

/-! ### One point -/

theorem Points.owner_eq_line_iff (p : Points) (i : Fin 16) : p.owner i = .line ↔ p.owners.getLsbD i.val = true := by
  unfold Points.owner
  split <;> simp_all

theorem Points.owner_eq_host_iff (p : Points) (i : Fin 16) : p.owner i = .host ↔ p.owners.getLsbD i.val = false := by
  unfold Points.owner
  split <;> simp_all

theorem Points.level_eq_bitLevel (p : Points) (i : Fin 16) : p.level i = bitLevel (p.levels.getLsbD i.val) := rfl

/-! ### SET_POINTS on the points -/

@[simp] theorem Points.hostSet_owners (p : Points) (mask levels : Word16) : (p.hostSet mask levels).owners = p.owners := rfl

@[simp] theorem Points.hostSet_pulses (p : Points) (mask levels : Word16) : (p.hostSet mask levels).pulses = p.pulses := rfl

/-- A bit of the new levels word comes from the argument where the mask names the point and no owner bit stands against it. -/
theorem Points.getLsbD_hostSet_levels (p : Points) (mask levels : Word16) (i : Fin 16) :
    (p.hostSet mask levels).levels.getLsbD i.val =
      if mask.getLsbD i.val && !p.owners.getLsbD i.val then levels.getLsbD i.val else p.levels.getLsbD i.val := by
  simp only [Points.hostSet, BitVec.getLsbD_or, BitVec.getLsbD_and, BitVec.getLsbD_not, i.isLt, decide_true, Bool.true_and]
  cases mask.getLsbD i.val && !p.owners.getLsbD i.val with
  | true => simp
  | false => simp

/-- R48: the host-owned points of the mask take the level given, and every other point keeps its level. -/
theorem Points.level_hostSet (p : Points) (mask levels : Word16) (i : Fin 16) :
    (p.hostSet mask levels).level i =
      if mask.getLsbD i.val = true ∧ p.owner i = .host then bitLevel (levels.getLsbD i.val) else p.level i := by
  rw [Points.level_eq_bitLevel, Points.getLsbD_hostSet_levels, apply_ite bitLevel, ← Points.level_eq_bitLevel]
  simp only [Points.owner_eq_host_iff, Bool.and_eq_true, Bool.not_eq_true']

/-- R48: the ignored mask names the line-owned points of the argument mask. -/
theorem Points.getLsbD_ignored_iff (p : Points) (mask : Word16) (i : Fin 16) :
    (mask &&& p.owners).getLsbD i.val = true ↔ mask.getLsbD i.val = true ∧ p.owner i = .line := by
  rw [Points.owner_eq_line_iff, BitVec.getLsbD_and, Bool.and_eq_true]

/-! ### The command -/

/-- The bytes of a word read back as that word. -/
theorem word2_extractLsb' (w : Word16) : word2 (w.extractLsb' 8 8) (w.extractLsb' 0 8) = w := (bytes2_eq_iff w _ _).1 rfl

/-- A port that takes a command answers SET_POINTS at its four argument bytes. -/
theorem exec_setPoints (s : State) (mask levels : Word16) (hs : s.Ready) :
    exec (.setPoints (bytes2 mask) (bytes2 levels)) s =
      .next (answerCommand (some .setPoints) (runSetPoints mask levels s).1 (runSetPoints mask levels s).2) := by
  have htaken := shapedCommand_of_taken .setPoints (exactly 4)
    (fun xs => runSetPoints (word2 (byteAt xs 0) (byteAt xs 1)) (word2 (byteAt xs 2) (byteAt xs 3)))
    (bytes2 mask ++ bytes2 levels) s hs (exactly_of_length 4 _ rfl)
  have hmask : word2 (byteAt (bytes2 mask ++ bytes2 levels) 0) (byteAt (bytes2 mask ++ bytes2 levels) 1) = mask :=
    word2_extractLsb' mask
  have hlevels : word2 (byteAt (bytes2 mask ++ bytes2 levels) 2) (byteAt (bytes2 mask ++ bytes2 levels) 3) = levels :=
    word2_extractLsb' levels
  rw [hmask, hlevels] at htaken
  exact congrArg Host.Outcome.next htaken

theorem runSetPoints_of_halted (s : State) (mask levels : Word16) (h : s.station.state = .halted) :
    runSetPoints mask levels s = (refusal .wrongState, s) := if_pos h

theorem runSetPoints_of_notHalted (s : State) (mask levels : Word16) (h : s.station.state ≠ .halted) :
    runSetPoints mask levels s =
      (okWith (bytes2 (mask &&& s.points.owners) ++ bytes2 (s.points.hostSet mask levels).levels),
        s.withPoints (s.points.hostSet mask levels)) := if_neg h

/-- Settles O33: SET_POINTS point by point, and its refusal in HALTED (R48). -/
theorem setPointsReachesHostOwnedPoints : Obligations.SetPointsReachesHostOwnedPoints := by
  intro s mask levels hs
  rw [exec_setPoints s mask levels hs]
  refine ⟨fun h => ?halted, fun h => ⟨s.points.hostSet mask levels, mask &&& s.points.owners, ?taken, rfl, rfl,
    s.points.level_hostSet mask levels, s.points.getLsbD_ignored_iff mask⟩⟩
  case halted => rw [runSetPoints_of_halted s mask levels h]; rfl
  case taken => rw [runSetPoints_of_notHalted s mask levels h]; rfl

end Sys2Proof.Machine
end

section
/-! SUPPORT. The evaluation point of a good frame (R113, R115 to R120): the scope test, what the report to the peer table and the
owner's answer leave of the decoder record, and the flags the decoder sets. -/

namespace Sys2Proof.Machine

/-! ### The scope test -/

/-- R117: GROUP 0, a group of the list, or the own ID. -/
theorem addresses_iff (st : Station) (scope : Scope) :
    addresses st scope = true ↔ scope = ⟨.group, 0⟩ ∨ (scope.mode = .group ∧ scope.number ∈ st.setup.groups) ∨
      scope = ⟨.station, st.id⟩ := by
  rcases scope with ⟨mode, number⟩
  cases mode with
  | group => simp [addresses]
  | station => simp [addresses]

/-- R116: a header of kind BEACON passes only with scope GROUP 0. -/
theorem scope_of_goodBeacon (sender : Byte) (scope : Scope) (length : Nat)
    (h : headerStatusOf 0 sender scope length = .good) : scope = ⟨.group, 0⟩ := by
  by_contra hscope
  have hform : (0 : BitVec 3) = 0 ∧ ¬(scope.mode = .group ∧ scope.number = 0) :=
    ⟨rfl, fun ⟨hmode, hnumber⟩ => hscope (by rw [← hmode, ← hnumber])⟩
  rw [headerStatusOf, if_pos hform] at h
  split_ifs at h

/-! ### The decoder record under the report and the answer -/

@[simp] theorem hearPeer_decoder (id : Byte) (beacon : Bool) (s : State) : (hearPeer id beacon s).decoder = s.decoder := by
  unfold hearPeer
  dsimp only
  split
  · rfl
  · rfl

@[simp] theorem raiseDuplicate_decoder (s : State) : (raiseDuplicate s).decoder = s.decoder := by
  cases h : s.station.state <;> simp [raiseDuplicate, h]

/-- R119: the report leaves the decoder record. -/
@[simp] theorem reportFrame_decoder (s : State) : (reportFrame s).decoder = s.decoder := by
  unfold reportFrame
  split
  · rfl
  · split
    · exact raiseDuplicate_decoder s
    · exact hearPeer_decoder _ _ s

/-- R120: from `s` to `t` the decoder record got its answer and kept every other field. -/
def AnswersOnly (s t : State) : Prop := ∃ a, t.decoder = { s.decoder with answer := some a }

theorem AnswersOnly.addressed_eq {s t : State} (h : AnswersOnly s t) : t.decoder.addressed = s.decoder.addressed := by
  obtain ⟨a, ha⟩ := h
  rw [ha]

theorem answersOnly_answerBeacon (s : State) : AnswersOnly s (answerBeacon s) := by
  unfold answerBeacon
  split
  · exact ⟨.none, rfl⟩
  · split
    · exact ⟨.none, rfl⟩
    · split
      · exact ⟨.take, rfl⟩
      · exact ⟨.take, rfl⟩

theorem answersOnly_evaluateWithdraw (s : State) : AnswersOnly s (evaluateWithdraw s) := by
  unfold evaluateWithdraw
  split
  · exact ⟨.veto, rfl⟩
  · split
    · exact ⟨.none, rfl⟩
    · split
      · exact ⟨.veto, rfl⟩
      · exact ⟨.take, rfl⟩

theorem answersOnly_missWithdraw (s : State) : AnswersOnly s (missWithdraw s) := by
  unfold missWithdraw
  split
  · exact ⟨.none, rfl⟩
  · split
    · exact ⟨.none, rfl⟩
    · exact ⟨.none, rfl⟩

theorem answersOnly_answerWithdraw (s : State) : AnswersOnly s (answerWithdraw s) := by
  unfold answerWithdraw
  split
  · exact answersOnly_evaluateWithdraw s
  · exact answersOnly_missWithdraw s
  all_goals exact ⟨.none, rfl⟩

theorem answersOnly_evaluateCue (s : State) : AnswersOnly s (evaluateCue s) := by
  unfold evaluateCue
  split
  · exact ⟨.veto, rfl⟩
  · exact ⟨.take, rfl⟩
  · exact ⟨.take, rfl⟩

theorem answersOnly_missCue (cause : MissedCause) (s : State) : AnswersOnly s (missCue cause s) := ⟨.none, rfl⟩

theorem answersOnly_answerCue (s : State) : AnswersOnly s (answerCue s) := by
  unfold answerCue
  split
  · split
    · exact answersOnly_evaluateCue s
    · exact answersOnly_missCue .unsynced s
  all_goals exact answersOnly_missCue _ s

theorem answersOnly_answerMessage (s : State) : AnswersOnly s (answerMessage s) := by
  unfold answerMessage
  split
  · exact ⟨.none, rfl⟩
  · split
    · exact ⟨.none, rfl⟩
    · split
      · exact ⟨.take, rfl⟩
      · exact ⟨.veto, rfl⟩

/-- R118: whichever owner answers, and in every station state, the answer is all that the decoder record takes. -/
theorem answersOnly_answerFrame (s : State) : AnswersOnly s (answerFrame s) := by
  unfold answerFrame
  split
  case h_2 => exact ⟨.none, rfl⟩
  case h_1 k hk =>
    split
    · exact answersOnly_answerBeacon s
    · split
      · exact ⟨.none, rfl⟩
      · split
        · exact answersOnly_answerWithdraw s
        · split
          · exact answersOnly_answerCue s
          · exact answersOnly_answerMessage s

/-- R121: report and answer, in either order, leave the addressed flag. -/
theorem reportAndAnswer_addressed (s : State) :
    (eitherOrder reportFrame answerFrame s).decoder.addressed = s.decoder.addressed :=
  @eitherOrder_keeps (fun t => t.decoder.addressed = s.decoder.addressed) reportFrame answerFrame
    (fun t ht => by rw [reportFrame_decoder, ht]) (fun t ht => (answersOnly_answerFrame t).addressed_eq.trans ht)
    (fun _ _ ht => ht) s rfl

/-! ### The evaluation point -/

/-- With the evaluation alone in hand, the row is the evaluation point. -/
theorem exec_evaluationPoint_of_atLastCheckBit (s : State) (h : s.atLastCheckBit) :
    exec .evaluationPoint s = .next (evaluationPoint s) := by
  have hfinish : finishSample s = evaluationPoint s := by simp [finishSample, h, Work.none]
  exact congrArg Host.Outcome.next hfinish

/-- R113, R120: the line goes on to ANSWERING, the decoder judges the frame by its check, and one answer is decided. -/
theorem evaluationPoint_eq_decideAnswer (s : State) : evaluationPoint s = decideAnswer
    (((s.withWork { s.work with evaluate := false }).withLine s.line.atEvaluation).withDecoder
      (s.decoder.judged (decide (s.rxCheck = s.decoder.checkAcc)) s.line.atEvaluation s.station)) := rfl

/-- R118, R119: an intact frame with a GOOD header is reported and handed on. -/
theorem decideAnswer_of_good (s : State) (hcheck : s.decoder.checkStatus = .intact) (hheader : s.decoder.headerStatus = .good) :
    decideAnswer s = eitherOrder reportFrame answerFrame s := by
  simp only [decideAnswer, hcheck, hheader]

section
variable {s : State} {kind : BitVec 3} {sender : Byte} {scope : Scope} (h : s.goodFrame kind sender scope)
include h

/-- The scope sampled is the scope of the frame. -/
theorem State.goodFrame.scope_eq : s.decoder.scope = scope := by
  obtain ⟨-, -, -, hmode, hnumber, -⟩ := h
  simp [Decoder.scope, hmode, hnumber]

/-- R113, R115 to R117, R119: the flags of an intact frame with a GOOD header. -/
theorem State.goodFrame.judged_eq (l : Line) (st : Station) :
    s.decoder.judged true l st = { s.decoder with
      checkStatus := .intact, headerStatus := .good, addressed := addresses st scope,
      foreignOwnId := decide (sender = st.id) && !(s.decoder.ownFrame && l.arbitration == .won) } := by
  have hscope := h.scope_eq
  obtain ⟨-, hkind, hsender, -, -, hheader⟩ := h
  simp [Decoder.judged, hscope, hkind, hsender, hheader, Bool.beq_eq_decide_eq]

/-- R118, R119: a good frame is reported and handed on, in either order, once the decoder has judged it. -/
theorem State.goodFrame.evaluationPoint_eq :
    evaluationPoint s = eitherOrder reportFrame answerFrame
      (((s.withWork { s.work with evaluate := false }).withLine s.line.atEvaluation).withDecoder
        (s.decoder.judged true s.line.atEvaluation s.station)) := by
  have hjudged := h.judged_eq s.line.atEvaluation s.station
  obtain ⟨hcheck, -⟩ := h
  rw [evaluationPoint_eq_decideAnswer, decide_eq_true hcheck, decideAnswer_of_good]
  · rw [State.withDecoder_decoder, hjudged]
  · rw [State.withDecoder_decoder, hjudged]

/-- R117: the flag is the scope test, whatever the station state and whoever sent the frame. -/
theorem State.goodFrame.addressed_eq : (evaluationPoint s).decoder.addressed = addresses s.station scope := by
  rw [h.evaluationPoint_eq, reportAndAnswer_addressed, State.withDecoder_decoder, h.judged_eq]

end

/-- Settles O48: the scope test of a good frame (R117). -/
theorem scopeTestOfAGoodFrame : Obligations.ScopeTestOfAGoodFrame := by
  intro s kind sender scope hlast hgood
  refine ⟨evaluationPoint s, exec_evaluationPoint_of_atLastCheckBit s hlast, ?scopeTest, ?beacon⟩
  case scopeTest => rw [hgood.addressed_eq, addresses_iff]
  case beacon =>
    rintro rfl
    rw [hgood.addressed_eq, addresses_iff]
    obtain ⟨-, -, -, -, -, hheader⟩ := hgood
    exact .inl (scope_of_goodBeacon sender scope _ hheader)

end Sys2Proof.Machine
end

section
/-! SUPPORT. PEER (R164): the record the peer table holds for an ID, and the command's answer case by case. -/

namespace Sys2Proof.Machine

/-- The record that an ID reads is the one the peer table holds at its place. -/
theorem State.peer_of_getElem? (s : State) {id : Byte} {r : PeerRecord} (h1 : 1 ≤ id.toNat)
    (hr : s.peers[id.toNat - 1]? = some r) : s.peer id = r := by
  have hid : id ≠ 0 := by bv_omega
  rw [State.peer, if_neg hid, List.getD_eq_getElem?_getD, hr, Option.getD_some]

/-- A port that takes a command answers PEER at its one argument byte. -/
theorem exec_peer (s : State) (id : Byte) (hs : s.Ready) :
    exec (.peer [id]) s = .next (answerCommand (some .peer) (runPeer id s).1 (runPeer id s).2) :=
  congrArg Host.Outcome.next
    (shapedCommand_of_taken .peer (exactly 1) (fun xs => runPeer (byteAt xs 0)) [id] s hs (exactly_of_length 1 _ rfl))

theorem runPeer_of_halted (s : State) (id : Byte) (h : s.station.state = .halted) :
    runPeer id s = (refusal .wrongState, s) := if_pos h

section
variable {s : State} {id : Byte} (h : s.station.state ≠ .halted)
include h

theorem runPeer_of_badId (hid : stationIdOk id = false) : runPeer id s = (refusal .form, s) := by
  rw [runPeer, if_neg h, if_pos hid]

variable (hid : stationIdOk id = true)
include hid

theorem runPeer_of_ownId (hown : id = s.station.id) : runPeer id s = (refusal .notFound, s) := by
  rw [runPeer, if_neg h, if_neg (by simp [hid]), if_pos hown]

/-- The ID of another station is answered with the record read, and with the line time. -/
theorem runPeer_of_otherId (hown : id ≠ s.station.id) :
    runPeer id s =
      (okWith ([presenceByte (s.peer id).presence] ++ bytes4 (s.peer id).lastHeard ++
        bytes2 (BitVec.ofNat 16 (s.peer id).framesHeard) ++
        [byteOf (s.peer id).silenceCount, boolByte (s.peer id).beaconSender] ++ bytes4 s.clock.lineTime), s) := by
  rw [runPeer, if_neg h, if_neg (by simp [hid]), if_neg hown]

end

/-- Settles O32: PEER's record, and its three refusals in their order (R164). -/
theorem peerReadsOneRecord : Obligations.PeerReadsOneRecord := by
  intro s id hs
  rw [exec_peer s id hs]
  refine ⟨fun h => ?halted, fun h hid => ?badId, fun h h1 h62 hown => ?ownId, fun h hown r h1 h62 hr => ?otherId⟩
  case halted => rw [runPeer_of_halted s id h]; rfl
  case badId => rw [runPeer_of_badId h ((stationIdOk_eq_false_iff id).2 hid)]; rfl
  case ownId => rw [runPeer_of_ownId h ((stationIdOk_iff id).2 ⟨h1, h62⟩) hown]; rfl
  case otherId =>
    rw [runPeer_of_otherId h ((stationIdOk_iff id).2 ⟨h1, h62⟩) hown, s.peer_of_getElem? h1 hr]
    rfl

end Sys2Proof.Machine
end

section
/-! SUPPORT. Every taken command is answered (R170): what an owner may answer where it does not answer OK, that each command's owner
keeps to it and refuses in HALTED, and how the host port takes a command whose arguments are complete, or refuses its shape. -/

namespace Sys2Proof.Machine

/-! ### An owner's answer -/

/-- R170: the codes other than OK that a command's own rule gives with results (R15, R144, R177). -/
def ReportsWith (c : Instr) (st : Status) : Prop :=
  ((∃ i, c = .listCue i) ∧ st = .notFound) ∨ ((c = .nextNotice ∨ ∃ i, c = .readCapture i) ∧ st = .empty)

/-- R170: what the owner of the command `c` may answer in the state `s`, and the state it leaves. -/
inductive OwnerAnswer (c : Instr) (s : State) : Response × State → Prop where
  | done (results : List Byte) (t : State) : OwnerAnswer c s (okWith results, t)
  | refused (st : Status) : OwnerAnswer c s (refusal st, s)
  | reported (st : Status) (results : List Byte) (h : ReportsWith c st) : OwnerAnswer c s (⟨st, results⟩, s)

section
variable {c : Instr} {s : State} {a : Response × State}

/-- An owner that does not answer OK leaves the state as it was. -/
theorem OwnerAnswer.state_eq (h : OwnerAnswer c s a) (hok : a.1.status ≠ .ok) : a.2 = s := by
  cases h with
  | done results t => exact absurd rfl hok
  | refused st => rfl
  | reported st results h => rfl

theorem OwnerAnswer.reportsWith (h : OwnerAnswer c s a) (hok : a.1.status ≠ .ok) (hr : a.1.results ≠ []) :
    ReportsWith c a.1.status := by
  cases h with
  | done results t => exact absurd rfl hok
  | refused st => exact absurd rfl hr
  | reported st results h => exact h

end

/-! ### Each owner's answer -/

theorem ownerAnswer_runSetup (args : List Byte) (s : State) : OwnerAnswer (.setup args) s (runSetup args s) := by
  unfold runSetup
  split
  · exact .refused _
  · split
    · exact .done _ _
    · exact .refused _

theorem ownerAnswer_runJoin (s : State) : OwnerAnswer .join s (runJoin s) := by
  unfold runJoin
  split
  · exact .refused _
  · exact .done _ _

/-- In LISTEN and ACTIVE a LEAVE is never refused. -/
theorem ownerAnswer_leave (s : State) : OwnerAnswer .leave s (runLeave.leave s) := by
  unfold runLeave.leave
  split
  · exact .done _ _
  · split
    · exact .done _ _
    · exact .done _ _

theorem ownerAnswer_runLeave (s : State) : OwnerAnswer .leave s (runLeave s) := by
  unfold runLeave
  cases s.station.state with
  | halted | setup | silent => exact .refused _
  | listen | active => exact ownerAnswer_leave s

theorem ownerAnswer_runRestart (straps : Straps) (s : State) : OwnerAnswer (.restart straps) s (runRestart straps s) :=
  .done _ _

section
variable (c : Instr) (s : State)

theorem ownerAnswer_runSendCue (handle mode number : Byte) (fields : List Byte) :
    OwnerAnswer c s (runSendCue handle mode number fields s) := by
  unfold runSendCue
  split
  · exact .refused _
  · split
    · split
      · exact .refused _
      · split
        · exact .refused _
        · exact .done _ _
    · exact .refused _

theorem ownerAnswer_runSendWithdraw (handle serial : Byte) : OwnerAnswer c s (runSendWithdraw handle serial s) := by
  unfold runSendWithdraw
  split
  · exact .refused _
  · split
    · exact .done _ _
    · exact .refused _

theorem ownerAnswer_runSendMessage (handle mode number : Byte) (payload : List Byte) :
    OwnerAnswer c s (runSendMessage handle mode number payload s) := by
  unfold runSendMessage
  split
  · split
    · exact .refused _
    · split
      · exact .refused _
      · exact .done _ _
  · exact .refused _

/-- R126, past the test of the station state: the kind byte picks the steps. -/
theorem ownerAnswer_send (args : List Byte) : OwnerAnswer c s (runSend.send args s) := by
  unfold runSend.send
  split
  · split
    · exact ownerAnswer_runSendCue ..
    · split
      · exact ownerAnswer_runSendWithdraw ..
      · exact ownerAnswer_runSendMessage ..
  · exact .refused _

theorem ownerAnswer_putTemplate (i : Fin 4) (t : Option Template) : OwnerAnswer c s (putTemplate i t s) := .done _ _

/-- R146, past the test of the station state. -/
theorem ownerAnswer_loadTemplate (args : List Byte) : OwnerAnswer c s (loadTemplate args s) := by
  unfold loadTemplate
  split
  · split
    · split
      · exact ownerAnswer_putTemplate ..
      · split
        · exact .refused _
        · split
          · exact .refused _
          · split
            · exact ownerAnswer_putTemplate ..
            · exact .refused _
    · exact .refused _
  · exact .refused _

end

theorem ownerAnswer_runSend (args : List Byte) (s : State) : OwnerAnswer (.send args) s (runSend args s) := by
  unfold runSend
  cases s.station.state with
  | halted | setup | silent => exact .refused _
  | listen | active => exact ownerAnswer_send ..

theorem ownerAnswer_runPurge (s : State) : OwnerAnswer .purge s (runPurge s) := by
  unfold runPurge
  split
  · exact .refused _
  · exact .done _ _

theorem ownerAnswer_runNextNotice (s : State) : OwnerAnswer .nextNotice s (runNextNotice s) := by
  unfold runNextNotice
  split
  · exact .refused _
  · split
    · exact .done _ _
    · exact .reported _ _ (.inr ⟨.inl rfl, rfl⟩)

theorem ownerAnswer_runStatus (s : State) : OwnerAnswer .status s (runStatus s) := .done _ _

theorem ownerAnswer_runTime (s : State) : OwnerAnswer .time s (runTime s) := by
  unfold runTime
  split
  · exact .refused _
  · exact .done _ _

theorem ownerAnswer_runSetPoints (c : Instr) (mask levels : Word16) (s : State) :
    OwnerAnswer c s (runSetPoints mask levels s) := by
  unfold runSetPoints
  split
  · exact .refused _
  · exact .done _ _

theorem ownerAnswer_runGetPoints (s : State) : OwnerAnswer .getPoints s (runGetPoints s) := by
  unfold runGetPoints
  split
  · exact .refused _
  · exact .done _ _

theorem ownerAnswer_runListCue (args : List Byte) (index : Byte) (s : State) :
    OwnerAnswer (.listCue args) s (runListCue index s) := by
  unfold runListCue
  split
  · exact .refused _
  · split
    · exact .done _ _
    · exact .reported _ _ (.inl ⟨⟨args, rfl⟩, rfl⟩)

theorem ownerAnswer_runDropCue (c : Instr) (issuer serial : Byte) (s : State) :
    OwnerAnswer c s (runDropCue issuer serial s) := by
  unfold runDropCue
  split
  · exact .refused _
  · split
    · exact .refused _
    · split
      · exact .refused _
      · split
        · exact .done _ _
        · exact .refused _

theorem ownerAnswer_runLoadTrigger (args : List Byte) (s : State) :
    OwnerAnswer (.loadTrigger args) s (runLoadTrigger args s) := by
  unfold runLoadTrigger
  cases s.station.state with
  | halted | silent => exact .refused _
  | setup | listen | active => exact ownerAnswer_loadTemplate ..

theorem ownerAnswer_readCaptureAt (args : List Byte) (i : Fin 4) (s : State) :
    OwnerAnswer (.readCapture args) s (readCaptureAt i s) := by
  dsimp only [readCaptureAt]
  split
  · exact .done _ _
  · exact .done _ _
  · exact .reported _ _ (.inr ⟨.inr ⟨args, rfl⟩, rfl⟩)

theorem ownerAnswer_runReadCapture (args : List Byte) (input : Byte) (s : State) :
    OwnerAnswer (.readCapture args) s (runReadCapture input s) := by
  unfold runReadCapture
  split
  · exact .refused _
  · split
    · exact ownerAnswer_readCaptureAt ..
    · exact .refused _

theorem ownerAnswer_runPeer (c : Instr) (id : Byte) (s : State) : OwnerAnswer c s (runPeer id s) := by
  unfold runPeer
  split
  · exact .refused _
  · split
    · exact .refused _
    · split
      · exact .refused _
      · exact .done _ _

/-! ### The owners in HALTED (R152) -/

section
variable {s : State} (h : s.station.state = .halted)
include h

theorem runSetup_of_halted (args : List Byte) : runSetup args s = (refusal .wrongState, s) := if_pos (by simp [h])

theorem runJoin_of_halted : runJoin s = (refusal .wrongState, s) := if_pos (by simp [h])

theorem runLeave_of_halted : runLeave s = (refusal .wrongState, s) := by rw [runLeave, h]

theorem runSend_of_halted (args : List Byte) : runSend args s = (refusal .wrongState, s) := by rw [runSend, h]

theorem runPurge_of_halted : runPurge s = (refusal .wrongState, s) := if_pos h

theorem runNextNotice_of_halted : runNextNotice s = (refusal .wrongState, s) := if_pos h

theorem runTime_of_halted : runTime s = (refusal .wrongState, s) := if_pos h

theorem runGetPoints_of_halted : runGetPoints s = (refusal .wrongState, s) := if_pos h

theorem runLoadTrigger_of_halted (args : List Byte) : runLoadTrigger args s = (refusal .wrongState, s) := by
  rw [runLoadTrigger, h]

theorem runReadCapture_of_halted (input : Byte) : runReadCapture input s = (refusal .wrongState, s) := if_pos h

end

/-! ### Taking a command -/

theorem exactly_ne_refused (n : Nat) (args : List Byte) (used : Nat) : exactly n args ≠ .refused used := by
  unfold exactly
  split <;> simp

/-- Argument bytes of exactly the shape are taken whole, or refused at the last of them. -/
theorem exactShape_cases {shape : List Byte → Shape} {args : List Byte} (h : Instr.exactShape shape args = true) :
    shape args = .taken args ∨ shape args = .refused args.length := by
  unfold Instr.exactShape at h
  split at h
  next xs hxs => exact .inl (eq_of_beq h ▸ hxs)
  next used hused => exact .inr (eq_of_beq h ▸ hused)
  next => contradiction

theorem length_of_exactShape {n : Nat} {args : List Byte} (h : Instr.exactShape (exactly n) args = true) : args.length = n := by
  have htaken : exactly n args = .taken args := (exactShape_cases h).resolve_right (exactly_ne_refused n args _)
  unfold exactly at htaken
  split at htaken
  · contradiction
  · have hlen : min n args.length = args.length := by
      simpa using congrArg List.length (Shape.taken.inj htaken)
    omega

/-- R168, R170: the command `c` is answered in the state `s`, as its owner may answer it, FORM where the host port refuses its shape, and
WRONG_STATE where HALTED refuses it. -/
def Answered (c : Instr) (s : State) : Prop :=
  ∃ name a, exec c s = .next (answerCommand name a.1 a.2) ∧ OwnerAnswer c s a ∧
    (shapeRefused c → a.1 = refusal .form) ∧
    (s.station.state = .halted → c ≠ .status → (∀ x, c ≠ .restart x) → ¬shapeRefused c → a.1 = refusal .wrongState)

section
variable {c : Instr} {s : State} (hs : s.Ready)
include hs

/-- A command without arguments is answered as its owner answers. -/
theorem answered_of_hostCommand (name : CommandName) (run : State → Response × State)
    (hexec : exec c s = .next (hostCommand name run s)) (hshape : ¬shapeRefused c) (howner : OwnerAnswer c s (run s))
    (hhalted : s.station.state = .halted → c ≠ .status → (∀ x, c ≠ .restart x) → run s = (refusal .wrongState, s)) :
    Answered c s := by
  refine ⟨some name, run s, ?_, howner, fun h => absurd h hshape, fun h hstatus hrestart _ => ?_⟩
  · rw [hexec, hostCommand_of_ready name run s hs]
  · rw [hhalted h hstatus hrestart]

/-- A command with arguments is answered by the host port where its shape is refused, and by its owner where it is taken. -/
theorem answered_of_shapedCommand (name : CommandName) (shape : List Byte → Shape) (run : List Byte → State → Response × State)
    (args : List Byte) (hexec : exec c s = .next (shapedCommand name shape run args s))
    (hexact : Instr.exactShape shape args = true) (hshape : shapeRefused c ↔ ∃ used, shape args = .refused used)
    (howner : OwnerAnswer c s (run args s))
    (hhalted : s.station.state = .halted → run args s = (refusal .wrongState, s)) : Answered c s := by
  rcases exactShape_cases hexact with htaken | hrefused
  · have hnot : ¬shapeRefused c := by simp [hshape, htaken]
    refine ⟨some name, run args s, ?_, howner, fun h => absurd h hnot, fun h _ _ _ => ?_⟩
    · rw [hexec, shapedCommand_of_taken name shape run args s hs htaken]
    · rw [hhalted h]
  · have hform : shapeRefused c := hshape.2 ⟨_, hrefused⟩
    refine ⟨some name, (refusal .form, s), ?_, .refused _, fun _ => rfl, fun _ _ _ hnot => absurd hform hnot⟩
    rw [hexec, shapedCommand_of_refused name shape run args _ s hs hrefused, Nat.sub_self, trailingBytes_zero]

/-- A command that calls for `n` argument bytes, whatever they are, is never refused for its shape. -/
theorem answered_of_exactly (name : CommandName) (n : Nat) (run : List Byte → State → Response × State) (args : List Byte)
    (hexec : exec c s = .next (shapedCommand name (exactly n) run args s)) (hlen : args.length = n) (hshape : ¬shapeRefused c)
    (howner : OwnerAnswer c s (run args s))
    (hhalted : s.station.state = .halted → run args s = (refusal .wrongState, s)) : Answered c s :=
  answered_of_shapedCommand hs name (exactly n) run args hexec
    (by simp [Instr.exactShape, exactly_of_length n args hlen])
    (iff_of_false hshape fun ⟨used, h⟩ => exactly_ne_refused n args used h) howner hhalted

/-- R168: a byte that names no command is answered FORM, and names no command in the port record. -/
theorem answered_unknownCommand (code : Byte) (hcode : knownCode code = false) : Answered (.unknownCommand code) s := by
  refine ⟨none, (refusal .form, s), ?_, .refused _, fun _ => rfl, fun _ _ _ hnot => absurd trivial hnot⟩
  simp only [exec, execUnknownCommand, hs.settle_eq, hs.2, hcode, if_true, Bool.false_eq_true, if_false]

/-- Every host command with its arguments complete is answered. -/
theorem answered_of_wellFormed (hc : isHostCommand c = true) (hwf : c.wellFormed = true) : Answered c s := by
  cases c with
  | setup args =>
    exact answered_of_shapedCommand hs .setup setupShape runSetup args rfl hwf .rfl (ownerAnswer_runSetup args s)
      (runSetup_of_halted · args)
  | join => exact answered_of_hostCommand hs .join runJoin rfl id (ownerAnswer_runJoin s) fun h _ _ => runJoin_of_halted h
  | leave => exact answered_of_hostCommand hs .leave runLeave rfl id (ownerAnswer_runLeave s) fun h _ _ => runLeave_of_halted h
  | restart straps =>
    exact answered_of_hostCommand hs .restart (runRestart straps) rfl id (ownerAnswer_runRestart straps s)
      fun _ _ hrestart => absurd rfl (hrestart straps)
  | send args =>
    exact answered_of_shapedCommand hs .send sendShape runSend args rfl hwf .rfl (ownerAnswer_runSend args s)
      (runSend_of_halted · args)
  | purge => exact answered_of_hostCommand hs .purge runPurge rfl id (ownerAnswer_runPurge s) fun h _ _ => runPurge_of_halted h
  | nextNotice =>
    exact answered_of_hostCommand hs .nextNotice runNextNotice rfl id (ownerAnswer_runNextNotice s)
      fun h _ _ => runNextNotice_of_halted h
  | status =>
    exact answered_of_hostCommand hs .status runStatus rfl id (ownerAnswer_runStatus s) fun _ hstatus _ => absurd rfl hstatus
  | time => exact answered_of_hostCommand hs .time runTime rfl id (ownerAnswer_runTime s) fun h _ _ => runTime_of_halted h
  | setPoints mask levels =>
    obtain ⟨hmask, hlevels⟩ := Bool.and_eq_true_iff.1 hwf
    exact answered_of_exactly hs .setPoints 4 _ (mask ++ levels) rfl
      (by simp [length_of_exactShape hmask, length_of_exactShape hlevels]) id (ownerAnswer_runSetPoints ..)
      (runSetPoints_of_halted s _ _)
  | getPoints =>
    exact answered_of_hostCommand hs .getPoints runGetPoints rfl id (ownerAnswer_runGetPoints s)
      fun h _ _ => runGetPoints_of_halted h
  | listCue args =>
    exact answered_of_exactly hs .listCue 1 _ args rfl (length_of_exactShape hwf) id (ownerAnswer_runListCue ..)
      (runListCue_of_halted s _)
  | dropCue issuer serial =>
    obtain ⟨hissuer, hserial⟩ := Bool.and_eq_true_iff.1 hwf
    exact answered_of_exactly hs .dropCue 2 _ (issuer ++ serial) rfl
      (by simp [length_of_exactShape hissuer, length_of_exactShape hserial]) id (ownerAnswer_runDropCue ..)
      (runDropCue_of_halted s _ _)
  | loadTrigger args =>
    exact answered_of_shapedCommand hs .loadTrigger loadTriggerShape runLoadTrigger args rfl hwf .rfl
      (ownerAnswer_runLoadTrigger args s) (runLoadTrigger_of_halted · args)
  | readCapture args =>
    exact answered_of_exactly hs .readCapture 1 _ args rfl (length_of_exactShape hwf) id (ownerAnswer_runReadCapture ..)
      (runReadCapture_of_halted · _)
  | peer args =>
    exact answered_of_exactly hs .peer 1 _ args rfl (length_of_exactShape hwf) id (ownerAnswer_runPeer ..)
      (runPeer_of_halted s _)
  | unknownCommand code => exact answered_unknownCommand hs code (by simpa [Instr.wellFormed] using hwf)
  | _ => cases hc

end

/-- Settles O14: a taken command is answered as its owner may answer it, so a refusal leaves every block (R168, R170). -/
theorem refusedCommandChangesNothing : Obligations.RefusedCommandChangesNothing := by
  intro c s hc hwf hs
  obtain ⟨name, a, hexec, howner, hform, hhalted⟩ := answered_of_wellFormed hs hc hwf
  refine ⟨_, a.1, hexec, rfl, fun hok => ?_, howner.reportsWith, hform, hhalted⟩
  rw [howner.state_eq hok]
  rfl

end Sys2Proof.Machine
end

section
/-! SUPPORT. The notice queue and its two readers: what becomes of a notice (R172, R175), NEXT_NOTICE (R176, R177) and STATUS (R178). -/

namespace Sys2Proof.Machine

/-! ### A notice -/

/-- A notice changes the queue, the dropped count and the marks, and nothing else of the port. -/
theorem Port.push_eq (p : Port) (b : Bool) (n : Notice) :
    p.push b n = { p with
      notices := (p.push b n).notices, dropped := (p.push b n).dropped, seen := (p.push b n).seen } := by
  unfold Port.push
  split
  · split
    · rfl
    · rfl
  · rfl

/-- R172, step 2: a notice of a disabled class is discarded. -/
theorem Port.push_of_disabled (p : Port) (n : Notice) :
    (p.push false n).notices = p.notices ∧ (p.push false n).dropped = p.dropped := ⟨rfl, rfl⟩

/-- R172, step 3: where a record is free, the notice enters at the tail. -/
theorem Port.push_of_free (p : Port) (n : Notice) (h : p.used < 16) :
    (p.push true n).notices = p.notices ++ [n] ∧ (p.push true n).dropped = p.dropped := by
  rcases p.push_cases true n with ⟨hdisabled, -⟩ | ⟨-, -, hentered⟩ | ⟨-, hfull, -⟩
  · contradiction
  · exact hentered
  · exact absurd h hfull

/-- R172, step 4: where none is free, the notice is dropped and counted. -/
theorem Port.push_of_full (p : Port) (n : Notice) (h : 16 ≤ p.used) :
    (p.push true n).notices = p.notices ∧
      (p.push true n).dropped = if p.dropped < 255 then p.dropped + 1 else 255 := by
  rcases p.push_cases true n with ⟨hdisabled, -⟩ | ⟨-, hfree, -⟩ | ⟨-, -, hnotices, hdropped⟩
  · contradiction
  · exact absurd hfree (Nat.not_lt.2 h)
  · refine ⟨hnotices, hdropped.trans ?_⟩
    rw [Config.droppedMax]
    split <;> omega

/-- R155, R172: the classes that are always enabled, and for the others the mask once JOIN has frozen it. -/
theorem Station.enables_iff (t : Station) (c : NoticeClass) : t.enables c = true ↔
    c = .sendDone ∨ c = .message ∨ c = .station ∨ t.joined = false ∨ t.setup.enableMask.getLsbD c.index = true := by
  cases c with
  | sendDone | message | station => simp [Station.enables]
  | _ => simp [Station.enables]

/-- R171: a HELD reservation is the one used record that is not in the queue. -/
theorem Port.used_of_held (p : Port) {r : Reservation} (h : p.reservation = some r) : p.used = p.notices.length + 1 := by
  simp [Port.used, h]

theorem Port.used_of_freed (p : Port) : ({ p with reservation := none } : Port).used = p.notices.length := by
  simp [Port.used]

/-- R175: a committed MESSAGE is queued on the port whose reservation has just been freed. -/
theorem hostPortOutcome_commit (s : State) {r : Reservation} (h : s.port.reservation = some r) :
    hostPortOutcome .commit s = notify (.message r.sender r.scope s.clock.lineTime s.rxBody)
      (s.withPort { s.port with reservation := none }) := by
  rw [hostPortOutcome, h]

/-- Settles O26: a notice's four steps, and the record that a committed MESSAGE finds (R172, R175). -/
theorem noticeIsMarkedQueuedOrDropped : Obligations.NoticeIsMarkedQueuedOrDropped := by
  refine ⟨fun n s => ⟨s.port.push_seen _ n, fun hoff => ?discarded, fun hon hfree => ?entered, fun hon hfull => ?dropped,
    ?nothingElse⟩, Station.enables_iff, fun s r hsafe hheld => ?committed⟩
  case discarded => rw [notify_port, hoff]; exact s.port.push_of_disabled n
  case entered => rw [notify_port, hon]; exact s.port.push_of_free n hfree
  case dropped => rw [notify_port, hon]; exact s.port.push_of_full n hfull
  case nothingElse => exact congrArg s.withPort (s.port.push_eq _ n)
  case committed =>
    have hroom : ({ s.port with reservation := none } : Port).used < 16 := by
      obtain ⟨hused : s.port.used ≤ 16, -⟩ := hsafe
      rw [s.port.used_of_held hheld] at hused
      rw [s.port.used_of_freed]
      omega
    rw [hostPortOutcome_commit s hheld]
    exact ⟨(Port.push_of_free _ _ hroom).1, Port.push_reservation ..⟩

/-! ### NEXT_NOTICE -/

/-- A port that takes a command answers NEXT_NOTICE at its command byte. -/
theorem exec_nextNotice (s : State) (hs : s.Ready) :
    exec .nextNotice s = .next (answerCommand (some .nextNotice) (runNextNotice s).1 (runNextNotice s).2) :=
  congrArg Host.Outcome.next (hostCommand_of_ready .nextNotice runNextNotice s hs)

theorem runNextNotice_of_cons (s : State) (n : Notice) (rest : List Notice) (h : s.station.state ≠ .halted)
    (hq : s.port.notices = n :: rest) :
    runNextNotice s = (okWith (byteOf rest.length :: n.bytes), s.withPort { s.port with notices := rest }) := by
  rw [runNextNotice, if_neg h, hq]

theorem runNextNotice_of_nil (s : State) (h : s.station.state ≠ .halted) (hq : s.port.notices = []) :
    runNextNotice s = (⟨.empty, [0]⟩, s) := by
  rw [runNextNotice, if_neg h, hq]

/-- R176. -/
theorem State.nirq_eq_low_iff (s : State) : s.nirq = .low ↔ s.port.notices ≠ [] := by
  unfold State.nirq
  split <;> simp_all

/-- Settles O27: the three cases of NEXT_NOTICE, and NIRQ (R176, R177). -/
theorem nextNoticeTakesTheOldest : Obligations.NextNoticeTakesTheOldest := by
  refine ⟨fun s hs h => ?halted, fun s n rest hs h hq => ?oldest, fun s hs h hq => ?empty, State.nirq_eq_low_iff⟩
  case halted => rw [exec_nextNotice s hs, runNextNotice_of_halted h]; rfl
  case oldest => rw [exec_nextNotice s hs, runNextNotice_of_cons s n rest h hq]; rfl
  case empty => rw [exec_nextNotice s hs, runNextNotice_of_nil s h hq]

/-! ### STATUS -/

/-- A port that takes a command answers STATUS at its command byte. -/
theorem exec_status (s : State) (hs : s.Ready) :
    exec .status s = .next (answerCommand (some .status) (okWith (statusBytes s))
      (s.withPort { s.port with dropped := 0, seen := 0 })) :=
  congrArg Host.Outcome.next (hostCommand_of_ready .status runStatus s hs)

/-- R174, R182: the reservation's byte is 0 for FREE and 1 for HELD. -/
theorem reservationByte_eq (o : Option Reservation) : boolByte o.isSome = if o = none then 0 else 1 := by
  cases o <;> rfl

/-- Settles O28: STATUS in every station state (R178). -/
theorem statusReportsAndClears : Obligations.StatusReportsAndClears := by
  intro s hs
  rw [exec_status s hs, statusBytes, reservationByte_eq]
  rfl

end Sys2Proof.Machine
end

section
/-! SUPPORT. Footprints: for each shared operation, the blocks of the station it can touch. What it leaves alone is then read off, block
by block. -/

namespace Sys2Proof.Machine

/-- The blocks of the station record. -/
inductive Block where
  | pins
  | station
  | clock
  | cues
  | points
  | line
  | decoder
  | send
  | inputs
  | peers
  | port
  | work
  | order
  | pending
deriving DecidableEq

/-- From `s` to `t` no block outside `bs` has changed. -/
structure Touches (bs : List Block) (s t : State) : Prop where
  pins : .pins ∉ bs → t.pins = s.pins
  station : .station ∉ bs → t.station = s.station
  clock : .clock ∉ bs → t.clock = s.clock
  cues : .cues ∉ bs → t.cues = s.cues
  points : .points ∉ bs → t.points = s.points
  line : .line ∉ bs → t.line = s.line
  decoder : .decoder ∉ bs → t.decoder = s.decoder
  send : .send ∉ bs → t.send = s.send
  inputs : .inputs ∉ bs → t.inputs = s.inputs
  peers : .peers ∉ bs → t.peers = s.peers
  port : .port ∉ bs → t.port = s.port
  work : .work ∉ bs → t.work = s.work
  order : .order ∉ bs → t.order = s.order
  pending : .pending ∉ bs → t.pending = s.pending

namespace Touches
variable {bs cs : List Block} {s t u : State}

theorem refl (bs : List Block) (s : State) : Touches bs s s := by constructor <;> exact fun _ => rfl

theorem trans (h : Touches bs s t) (h' : Touches bs t u) : Touches bs s u where
  pins hb := (h'.pins hb).trans (h.pins hb)
  station hb := (h'.station hb).trans (h.station hb)
  clock hb := (h'.clock hb).trans (h.clock hb)
  cues hb := (h'.cues hb).trans (h.cues hb)
  points hb := (h'.points hb).trans (h.points hb)
  line hb := (h'.line hb).trans (h.line hb)
  decoder hb := (h'.decoder hb).trans (h.decoder hb)
  send hb := (h'.send hb).trans (h.send hb)
  inputs hb := (h'.inputs hb).trans (h.inputs hb)
  peers hb := (h'.peers hb).trans (h.peers hb)
  port hb := (h'.port hb).trans (h.port hb)
  work hb := (h'.work hb).trans (h.work hb)
  order hb := (h'.order hb).trans (h.order hb)
  pending hb := (h'.pending hb).trans (h.pending hb)

theorem mono (h : Touches bs s t) (hsub : bs ⊆ cs) : Touches cs s t where
  pins hb := h.pins fun hm => hb (hsub hm)
  station hb := h.station fun hm => hb (hsub hm)
  clock hb := h.clock fun hm => hb (hsub hm)
  cues hb := h.cues fun hm => hb (hsub hm)
  points hb := h.points fun hm => hb (hsub hm)
  line hb := h.line fun hm => hb (hsub hm)
  decoder hb := h.decoder fun hm => hb (hsub hm)
  send hb := h.send fun hm => hb (hsub hm)
  inputs hb := h.inputs fun hm => hb (hsub hm)
  peers hb := h.peers fun hm => hb (hsub hm)
  port hb := h.port fun hm => hb (hsub hm)
  work hb := h.work fun hm => hb (hsub hm)
  order hb := h.order fun hm => hb (hsub hm)
  pending hb := h.pending fun hm => hb (hsub hm)

/-- One step after another. -/
theorem andThen (h : Touches bs s t) (h' : Touches cs t u) : Touches (bs ++ cs) s u :=
  (h.mono (List.subset_append_left bs cs)).trans (h'.mono (List.subset_append_right bs cs))

theorem withPins (s : State) (x : Pins) : Touches [.pins] s (s.withPins x) := by constructor <;> simp
theorem withStation (s : State) (x : Station) : Touches [.station] s (s.withStation x) := by constructor <;> simp
theorem withClock (s : State) (x : Clock) : Touches [.clock] s (s.withClock x) := by constructor <;> simp
theorem withCues (s : State) (x : CueTable) : Touches [.cues] s (s.withCues x) := by constructor <;> simp
theorem withPoints (s : State) (x : Points) : Touches [.points] s (s.withPoints x) := by constructor <;> simp
theorem withLine (s : State) (x : Line) : Touches [.line] s (s.withLine x) := by constructor <;> simp
theorem withDecoder (s : State) (x : Decoder) : Touches [.decoder] s (s.withDecoder x) := by constructor <;> simp
theorem withSend (s : State) (x : SendUnit) : Touches [.send] s (s.withSend x) := by constructor <;> simp
theorem withInputs (s : State) (x : Four TriggerInput) : Touches [.inputs] s (s.withInputs x) := by constructor <;> simp
theorem withPeers (s : State) (x : List PeerRecord) : Touches [.peers] s (s.withPeers x) := by constructor <;> simp
theorem withPort (s : State) (x : Port) : Touches [.port] s (s.withPort x) := by constructor <;> simp
theorem withWork (s : State) (x : Work) : Touches [.work] s (s.withWork x) := by constructor <;> simp
theorem withOrder (s : State) (x : Nat) : Touches [.order] s (s.withOrder x) := by constructor <;> simp
theorem notify (n : Notice) (s : State) : Touches [.port] s (notify n s) := withPort s _

theorem notifyAll (ns : List Notice) (s : State) : Touches [.port] s (notifyAll ns s) := by
  obtain ⟨p, h⟩ := notifyAll_port ns s
  exact h ▸ withPort s p

/-- Two blocks in either order touch what each may touch, and the count of free values. -/
theorem eitherOrder {f g : State → State} (hf : ∀ s, Touches bs s (f s)) (hg : ∀ s, Touches bs s (g s)) (s : State) :
    Touches (.order :: bs) s (eitherOrder f g s) :=
  eitherOrder_keeps (P := Touches (.order :: bs) s)
    (fun t h => h.trans ((hf t).mono (List.subset_cons_self _ _))) (fun t h => h.trans ((hg t).mono (List.subset_cons_self _ _)))
    (fun t n h => h.trans ((withOrder t n).mono (by simp))) s (refl _ s)

end Touches

/-! ### The readers of an advance -/

theorem touches_fireEntry (adv : Advance) (e : CueEntry) (rest : List CueEntry) (s : State) :
    Touches [.points, .cues, .port] s (fireEntry adv e rest s) :=
  (Touches.withPoints s _).andThen (.withCues _ _) |>.andThen (.notify _ _) |>.mono (by simp)

theorem touches_takeDueItem (adv : Advance) (it : DueItem) (s : State) :
    Touches [.points, .cues, .port] s (takeDueItem adv it s) := by
  cases it with
  | entry e rest => exact touches_fireEntry adv e rest s
  | restores d => exact (Touches.withPoints s _).mono (by simp)

theorem touches_takeDueItems (adv : Advance) (n : Nat) (s : State) :
    Touches [.points, .cues, .port] s (takeDueItems adv n s) := by
  induction n generalizing s with
  | zero => exact .refl _ s
  | succ n ih =>
    unfold takeDueItems
    split
    · rename_i it _
      exact (touches_takeDueItem adv it s).trans (ih _)
    · exact .refl _ s

theorem touches_fireAdvance (adv : Advance) (s : State) : Touches [.points, .cues, .port] s (fireAdvance adv s) :=
  touches_takeDueItems adv _ s

/-- R70: the readers of an advance, with the advance worked. -/
theorem finishAdvance_of_some {s : State} {adv : Advance} (h : s.work.advance = some adv) :
    finishAdvance s = advanceInputs adv (ageIssued adv (fireAdvance adv (s.withWork { s.work with advance := none }))) := by
  unfold finishAdvance; rw [h]

theorem finishAdvance_of_none {s : State} (h : s.work.advance = none) : finishAdvance s = s := by
  unfold finishAdvance; rw [h]

theorem finishDue_of_due {s : State} (h : s.work.due = true) : finishDue s = dueTime (s.withWork { s.work with due := false }) :=
  if_pos h

theorem finishDue_of_none {s : State} (h : s.work.due = false) : finishDue s = s := if_neg (by simp [h])

theorem touches_finishAdvance (s : State) : Touches [.points, .cues, .send, .inputs, .port, .work] s (finishAdvance s) := by
  cases h : s.work.advance with
  | none => rw [finishAdvance_of_none h]; exact .refl _ s
  | some adv =>
    rw [finishAdvance_of_some h]
    exact (Touches.withWork s _).andThen (touches_fireAdvance adv _) |>.andThen (.withSend _ _)
      |>.andThen (.withInputs _ _) |>.mono (by simp)

@[simp] theorem finishAdvance_work (s : State) : (finishAdvance s).work = { s.work with advance := none } := by
  cases h : s.work.advance with
  | none => rw [finishAdvance_of_none h, ← h]
  | some adv =>
    rw [finishAdvance_of_some h]
    exact (touches_fireAdvance adv _).work (by simp)

/-- R130: of the send unit an advance reaches the issued list alone. -/
theorem finishAdvance_send (s : State) : (finishAdvance s).send = { s.send with
    issued := match s.work.advance with
      | some adv => s.send.issued.filter (fun i => !adv.passes i.lastFire)
      | none => s.send.issued } := by
  cases h : s.work.advance with
  | none => rw [finishAdvance_of_none h]
  | some adv =>
    rw [finishAdvance_of_some h]
    have hs := (touches_fireAdvance adv (s.withWork { s.work with advance := none })).send (by simp)
    simp only [advanceInputs, ageIssued, State.withInputs_send, State.withSend_send, hs, State.withWork_send]

/-! ### A due time -/

theorem touches_enterState (new : StationState) (cause : StationCause) (kind : Option (BitVec 3)) (s : State) :
    Touches [.station, .port] s (enterState new cause kind s) :=
  (Touches.withStation s _).andThen (.withPort _ _) |>.mono (by simp)

theorem touches_enterActive (cause : StationCause) (s : State) : Touches [.station, .port] s (enterActive cause s) := by
  unfold enterActive
  split
  · exact touches_enterState _ _ _ s
  · exact .refl _ s

/-- R158: of the station record the entry to ACTIVE reaches the state alone. -/
theorem enterActive_station (cause : StationCause) (s : State) : (enterActive cause s).station =
    { s.station with state := if s.station.state = .listen then .active else s.station.state } := by
  unfold enterActive
  split
  · rfl
  · rfl

theorem touches_loseReference (s : State) : Touches [.clock, .port] s (loseReference s) :=
  (Touches.withClock s _).andThen (.notify _ _) |>.mono (by simp)

theorem touches_endHoldover (s : State) : Touches [.clock, .port] s (endHoldover s) :=
  (Touches.withClock s _).andThen (.notify _ _) |>.mono (by simp)

theorem touches_expireWindow (s : State) : Touches [.clock, .station, .port] s (expireWindow s) := by
  unfold expireWindow
  dsimp only
  split
  · exact (Touches.withClock s _).andThen (touches_enterActive _ _) |>.mono (by simp)
  · exact (Touches.withClock s _) |>.mono (by simp)

/-- R72, step 1. -/
theorem touches_dueCounts (s : State) : Touches [.clock, .station, .port] s (dueCounts s) := by
  unfold dueCounts
  split
  · split
    · exact (touches_loseReference s).mono (by simp)
    · exact (Touches.withClock s _).mono (by simp)
  · split
    · exact (touches_endHoldover s).mono (by simp)
    · exact (Touches.withClock s _).mono (by simp)
  · split
    · split
      · exact touches_expireWindow s
      · exact (Touches.withClock s _).mono (by simp)
    · exact .refl _ s
  · exact .refl _ s

/-- R72, step 2. -/
theorem touches_placeBeacon (s : State) : Touches [.send] s (placeBeacon s) := by
  unfold placeBeacon
  split
  · exact .withSend s _
  · exact .refl _ s

/-- R72, step 3. -/
theorem touches_agePeers (s : State) : Touches [.peers, .port] s (agePeers s) :=
  (Touches.withPeers s _).andThen (.notifyAll _ _) |>.mono (by simp)

theorem touches_dueTime (s : State) : Touches [.clock, .station, .send, .peers, .port] s (dueTime s) :=
  (touches_dueCounts s).andThen (touches_placeBeacon _) |>.andThen (touches_agePeers _) |>.mono (by simp)

theorem touches_finishDue (s : State) : Touches [.clock, .station, .send, .peers, .port, .work] s (finishDue s) := by
  unfold finishDue
  split
  · exact (Touches.withWork s _).andThen (touches_dueTime _) |>.mono (by simp)
  · exact .refl _ s

@[simp] theorem finishDue_work (s : State) : (finishDue s).work = { s.work with due := false } := by
  cases h : s.work.due with
  | false => rw [finishDue_of_none h, ← h]
  | true => rw [finishDue_of_due h]; exact (touches_dueTime _).work (by simp)

/-! ### The evaluation point -/

/-- R162. -/
theorem touches_hearPeer (id : Byte) (beacon : Bool) (s : State) : Touches [.peers, .port] s (hearPeer id beacon s) := by
  unfold hearPeer
  dsimp only
  split
  · exact (Touches.withPeers s _).mono (by simp)
  · exact (Touches.withPeers s _).andThen (.notify _ _) |>.mono (by simp)

/-- R166. -/
theorem touches_raiseDuplicate (s : State) : Touches [.station] s (raiseDuplicate s) := by
  unfold raiseDuplicate
  cases s.station.state with
  | listen | active => exact .withStation s _
  | silent | setup | halted => exact .refl _ s

/-- R119. -/
theorem touches_reportFrame (s : State) : Touches [.station, .peers, .port] s (reportFrame s) := by
  unfold reportFrame
  split
  · exact .refl _ s
  · split
    · exact (touches_raiseDuplicate s).mono (by simp)
    · exact (touches_hearPeer _ _ s).mono (by simp)

theorem touches_answer (s : State) (a : Answer) : Touches [.decoder] s (s.answer a) := .withDecoder s _

/-- R21. -/
theorem touches_record (s : State) (kind : OfferKind) (key : Key) (a : Answer) (eff : OfferEffect) :
    Touches [.cues, .decoder] s ((s.record kind key a eff).answer a) :=
  (Touches.withCues s _).andThen (.withDecoder _ _) |>.mono (by simp)

theorem touches_answerBeacon (s : State) : Touches [.decoder, .clock, .port] s (answerBeacon s) := by
  unfold answerBeacon
  split
  · exact (touches_answer s _).andThen (.notify _ _) |>.mono (by simp)
  · split
    · exact (touches_answer s _).andThen (.notify _ _) |>.mono (by simp)
    · split
      · exact (touches_answer s _).mono (by simp)
      · exact (Touches.withClock s _).andThen (touches_answer _ _) |>.mono (by simp)

theorem touches_evaluateWithdraw (s : State) : Touches [.decoder, .cues, .port] s (evaluateWithdraw s) := by
  unfold evaluateWithdraw
  split
  · exact (touches_record s _ _ _ _).andThen (.notify _ _) |>.mono (by simp)
  · split
    · exact (touches_record s _ _ _ _).mono (by simp)
    · split
      · exact (touches_record s _ _ _ _).andThen (.notify _ _) |>.mono (by simp)
      · exact (Touches.withCues s _).andThen (touches_record _ _ _ _ _) |>.mono (by simp)

theorem touches_missWithdraw (s : State) : Touches [.decoder, .port] s (missWithdraw s) := by
  unfold missWithdraw
  split
  · exact (touches_answer s _).mono (by simp)
  · split
    · exact (touches_answer s _).andThen (.notify _ _) |>.mono (by simp)
    · exact (touches_answer s _).mono (by simp)

theorem touches_answerWithdraw (s : State) : Touches [.decoder, .cues, .port] s (answerWithdraw s) := by
  unfold answerWithdraw
  cases s.station.state with
  | active => exact touches_evaluateWithdraw s
  | silent => exact (touches_missWithdraw s).mono (by simp)
  | listen | setup | halted => exact (touches_answer s _).mono (by simp)

theorem touches_missCue (cause : MissedCause) (s : State) : Touches [.decoder, .port] s (missCue cause s) :=
  (touches_answer s _).andThen (.notify _ _) |>.mono (by simp)

theorem touches_evaluateCue (s : State) : Touches [.decoder, .cues, .port] s (evaluateCue s) := by
  unfold evaluateCue
  split
  · exact (touches_record s _ _ _ _).andThen (.notify _ _) |>.mono (by simp)
  · exact (touches_record s _ _ _ _).mono (by simp)
  · exact (Touches.withCues s _).andThen (touches_record _ _ _ _ _) |>.mono (by simp)

theorem touches_answerCue (s : State) : Touches [.decoder, .cues, .port] s (answerCue s) := by
  unfold answerCue
  cases s.station.state with
  | active =>
    dsimp only
    split
    · exact touches_evaluateCue s
    · exact (touches_missCue _ s).mono (by simp)
  | silent | listen | setup | halted => exact (touches_missCue _ s).mono (by simp)

theorem touches_answerMessage (s : State) : Touches [.decoder, .port] s (answerMessage s) := by
  unfold answerMessage
  split
  · exact (touches_answer s _).mono (by simp)
  · split
    · exact (touches_answer s _).andThen (.notify _ _) |>.mono (by simp)
    · split
      · exact (Touches.withPort s _).andThen (touches_answer _ _) |>.mono (by simp)
      · exact (Touches.withPort s _).andThen (touches_answer _ _) |>.mono (by simp)

/-- R118: the owner's answer. -/
theorem touches_answerFrame (s : State) : Touches [.decoder, .clock, .cues, .port] s (answerFrame s) := by
  unfold answerFrame
  split
  · split
    · exact (touches_answerBeacon s).mono (by simp)
    · split
      · exact (touches_answer s _).mono (by simp)
      · split
        · exact (touches_answerWithdraw s).mono (by simp)
        · split
          · exact (touches_answerCue s).mono (by simp)
          · exact (touches_answerMessage s).mono (by simp)
  · exact (touches_answer s _).mono (by simp)

/-- R120: the decision at the evaluation point. -/
theorem touches_decideAnswer (s : State) :
    Touches [.order, .decoder, .clock, .cues, .station, .peers, .port] s (decideAnswer s) := by
  have hanswer : ∀ a, Touches [.order, .decoder, .clock, .cues, .station, .peers, .port] s (s.answer a) :=
    fun a => (touches_answer s a).mono (by simp)
  unfold decideAnswer
  split
  · exact hanswer _
  · exact hanswer _
  · split
    · exact Touches.eitherOrder (bs := [.decoder, .clock, .cues, .station, .peers, .port])
        (fun s => (touches_reportFrame s).mono (by simp)) (fun s => (touches_answerFrame s).mono (by simp)) s
    · exact (hanswer _).andThen (.notify _ _) |>.mono (by simp)
    · exact (hanswer _).andThen (.notify _ _) |>.mono (by simp)
    · exact hanswer _

theorem touches_evaluationPoint (s : State) :
    Touches [.order, .decoder, .clock, .cues, .station, .peers, .port, .line, .work] s (evaluationPoint s) :=
  (Touches.withWork s _).andThen (.withLine _ _) |>.andThen (.withDecoder _ _)
    |>.andThen (touches_decideAnswer _) |>.mono (by simp)

@[simp] theorem evaluationPoint_work (s : State) : (evaluationPoint s).work = { s.work with evaluate := false } :=
  (touches_decideAnswer _).work (by simp)

@[simp] theorem evaluationPoint_line (s : State) : (evaluationPoint s).line = s.line.atEvaluation :=
  (touches_decideAnswer _).line (by simp)

/-! ### What a sample leaves, and the instant finished -/

theorem touches_endEntry (o : SendOutcome) (e : SendEntry) (s : State) : Touches [.send, .port] s (endEntry o e s) :=
  (Touches.withSend s _).andThen (.notify _ _) |>.mono (by simp)

theorem touches_attemptOutcome (o : AttemptOutcome) (s : State) : Touches [.send, .port] s (attemptOutcome o s) := by
  obtain ⟨u, p, h⟩ := attemptOutcome_eq o s
  exact h ▸ ((Touches.withSend s u)).andThen (.withPort _ p) |>.mono (by simp)

theorem touches_offerQueue (n : Nat) (s : State) : Touches [.send, .port] s (offerQueue n s) := by
  obtain ⟨u, p, h⟩ := offerQueue_eq n s
  exact h ▸ ((Touches.withSend s u)).andThen (.withPort _ p) |>.mono (by simp)

theorem touches_loseArbitration (s : State) :
    Touches [.work, .line, .decoder, .send, .port] s (loseArbitration s) :=
  (Touches.withWork s _).andThen (.withLine _ _) |>.andThen (.withDecoder _ _)
    |>.andThen (touches_attemptOutcome .lost _) |>.mono (by simp)

@[simp] theorem loseArbitration_work (s : State) : (loseArbitration s).work = { s.work with arbLost := false } :=
  (touches_attemptOutcome .lost _).work (by simp)

theorem touches_finishSample (s : State) :
    Touches [.order, .decoder, .clock, .cues, .station, .peers, .send, .port, .line, .work] s (finishSample s) := by
  have harb : Touches [.order, .decoder, .clock, .cues, .station, .peers, .send, .port, .line, .work] s
      (if s.work.arbLost then loseArbitration s else s) := by
    split
    · exact (touches_loseArbitration s).mono (by simp)
    · exact .refl _ s
  unfold finishSample
  dsimp only
  generalize (if s.work.arbLost then loseArbitration s else s) = t at harb ⊢
  split
  · exact harb.andThen (touches_evaluationPoint _) |>.mono (by simp)
  · exact harb

/-- A sample leaves nothing in hand but an advance and a due time. -/
@[simp] theorem finishSample_work (s : State) :
    (finishSample s).work = { s.work with arbLost := false, evaluate := false } := by
  unfold finishSample
  dsimp only
  by_cases ha : s.work.arbLost = true <;> by_cases he : s.work.evaluate = true
  · rw [if_pos ha, if_pos (by simp [he])]; simp
  · rw [if_pos ha, if_neg (by simp [he])]; simp [he]
  · rw [if_neg ha, if_pos he]; simp [ha]
  · rw [if_neg ha, if_neg he]
    simp only [Bool.not_eq_true] at ha he
    exact (congrArg₂ (fun a e => ({ s.work with arbLost := a, evaluate := e } : Work)) ha he).symm ▸ rfl

@[simp] theorem finishWork_work (s : State) : (finishWork s).work = Work.none := by
  unfold finishWork
  split
  · assumption
  · rcases eitherOrder_cases finishAdvance finishDue (finishSample s) with e | e | e <;> rw [e] <;>
      simp [Work.none]

theorem touches_offerBeacon (s : State) : Touches [.send] s (offerBeacon s) := by
  unfold offerBeacon
  split
  · exact .withSend s _
  · exact .refl _ s

theorem touches_offerHead (s : State) : Touches [.send, .port] s (offerHead s) := by
  unfold offerHead
  split
  · exact touches_offerQueue _ s
  · exact .refl _ s

/-- R131, R85: the offers of an instant. -/
theorem touches_makeOffers (s : State) : Touches [.send, .port] s (makeOffers s) :=
  (touches_offerBeacon s).andThen (touches_offerHead _) |>.mono (by simp)

@[simp] theorem settle_work (s : State) : (settle s).work = Work.none := by
  rw [settle, (touches_makeOffers _).work (by simp), finishWork_work]

/-- Finishing an instant leaves the pins and the waiting commands. -/
theorem touches_settle (s : State) :
    Touches [.order, .decoder, .clock, .cues, .points, .station, .peers, .send, .inputs, .port, .line, .work] s (settle s) := by
  have hwork : Touches [.order, .decoder, .clock, .cues, .points, .station, .peers, .send, .inputs, .port, .line, .work] s
      (finishWork s) := by
    unfold finishWork
    split
    · exact .refl _ s
    · exact ((touches_finishSample s).mono (by simp)).trans
        (Touches.eitherOrder (bs := [.clock, .cues, .points, .station, .peers, .send, .inputs, .port, .work])
          (fun s => (touches_finishAdvance s).mono (by simp)) (fun s => (touches_finishDue s).mono (by simp)) _ |>.mono
            (by simp))
  exact hwork.andThen (touches_makeOffers _) |>.mono (by simp)

/-! ### Station control and outcomes -/

/-- R87, R90, R137, R160: the entry to SILENT. -/
theorem touches_clockLeavesActive (s : State) : Touches [.send, .clock, .port] s (clockLeavesActive s) := by
  obtain ⟨p, h⟩ := clockLeavesActive_eq s
  rw [h]
  exact (Touches.withSend s _).andThen (.withClock _ _) |>.andThen (.withPort _ p) |>.mono (by simp)

theorem touches_silenceQueue (s : State) : Touches [.send, .port] s (silenceQueue s) := by
  obtain ⟨p, h⟩ := silenceQueue_eq s
  rw [h]
  exact (Touches.withSend s _).andThen (.withPort _ p) |>.mono (by simp)

theorem touches_silencing (s : State) :
    Touches [.order, .send, .clock, .port] s (eitherOrder silenceQueue clockLeavesActive s) :=
  Touches.eitherOrder (bs := [.send, .clock, .port]) (fun s => (touches_silenceQueue s).mono (by simp))
    (fun s => (touches_clockLeavesActive s).mono (by simp)) s

theorem touches_enterSilent (cause : StationCause) (kind : Option (BitVec 3)) (s : State) :
    Touches [.order, .station, .line, .send, .clock, .port] s (enterSilent cause kind s) :=
  (Touches.withStation s _).andThen (.withLine _ _) |>.andThen (touches_enterState _ _ _ _)
    |>.andThen (touches_silencing _) |>.mono (by simp)

theorem touches_ownBeaconCommits (s : State) : Touches [.clock, .port] s (ownBeaconCommits s) := by
  unfold ownBeaconCommits
  split
  · exact .refl _ s
  · exact (Touches.withClock s _).andThen (.notify _ _) |>.mono (by simp)

theorem touches_adoptBeacon (b : BeaconRecord) (s : State) :
    Touches [.clock, .work, .station, .port] s (adoptBeacon b s) := by
  unfold adoptBeacon
  split
  · exact (Touches.withClock s _).mono (by simp)
  · rename_i cause _
    have hclock : Touches [.clock, .work, .station, .port] s
        ((s.withClock (s.clock.adopted b)).withWork { s.work with advance := steppedAdvance s.clock b }) :=
      (Touches.withClock s _).andThen (.withWork _ _) |>.mono (by simp)
    cases cause with
    | none =>
      dsimp only
      split
      · exact hclock.andThen (touches_enterActive _ _) |>.mono (by simp)
      · exact hclock
    | some k =>
      dsimp only
      split
      · exact (hclock.andThen (.notify _ _)).andThen (touches_enterActive _ _) |>.mono (by simp)
      · exact hclock.andThen (.notify _ _) |>.mono (by simp)

theorem touches_yieldSlot (sender : Byte) (s : State) : Touches [.send] s (yieldSlot sender s) := by
  unfold yieldSlot
  split
  · exact .withSend s _
  · exact .refl _ s

theorem touches_lineClockOutcome (o : Outcome) (s : State) :
    Touches [.clock, .work, .station, .send, .port] s (lineClockOutcome o s) := by
  cases o with
  | commit =>
    unfold lineClockOutcome
    dsimp only
    split
    · exact (touches_ownBeaconCommits s).mono (by simp)
    · split
      · exact (touches_yieldSlot _ s).andThen (touches_adoptBeacon _ _) |>.mono (by simp)
      · exact .refl _ s
  | void | unheard | aborted => exact (Touches.withClock s _).mono (by simp)

theorem touches_cueTableOutcome (o : Outcome) (s : State) : Touches [.cues, .port] s (cueTableOutcome o s) := by
  obtain ⟨c, p, h⟩ := cueTableOutcome_eq o s
  exact h ▸ ((Touches.withCues s c)).andThen (.withPort _ p) |>.mono (by simp)

theorem touches_hostPortOutcome (o : Outcome) (s : State) : Touches [.port] s (hostPortOutcome o s) := by
  obtain ⟨p, h⟩ := hostPortOutcome_eq o s
  exact h ▸ .withPort s p

/-- R121, R122: the outcome at the frame's owner. -/
theorem touches_deliverToOwner (o : Outcome) (s : State) :
    Touches [.clock, .work, .station, .send, .cues, .port] s (deliverToOwner o s) := by
  unfold deliverToOwner
  split
  · exact (touches_lineClockOutcome o s).mono (by simp)
  · exact (touches_cueTableOutcome o s).mono (by simp)
  · exact (touches_hostPortOutcome o s).mono (by simp)
  · exact .refl _ s

theorem touches_closeFrame (s : State) :
    Touches [.order, .station, .line, .send, .clock, .decoder, .port] s (closeFrame s) := by
  unfold closeFrame
  dsimp only
  split
  · exact (touches_enterSilent _ _ s).andThen (.withDecoder _ _) |>.mono (by simp)
  · split
    · exact (touches_enterSilent _ _ s).andThen (.withDecoder _ _) |>.mono (by simp)
    · exact (Touches.withDecoder s _).mono (by simp)

end Sys2Proof.Machine
end

section
/-! SUPPORT. The host port, the send unit and the counted records: what each operation does to its block keeps the block's bounds
(R124, R126, R128, R142, R162, R163, R171, R172). -/

namespace Sys2Proof.Machine

/-! ### The notice queue (R171, R172) -/

theorem Port.safe_push {p : Port} (b : Bool) (n : Notice) (h : p.Safe) : (p.push b n).Safe := by
  obtain ⟨hused, hdropped⟩ := h
  have hres : (p.push b n).reservation = p.reservation := p.push_reservation b n
  have hu : p.used = p.notices.length + (if p.reservation.isSome then 1 else 0) := rfl
  have hu' : (p.push b n).used = (p.push b n).notices.length + (if p.reservation.isSome then 1 else 0) := by
    rw [Port.used, hres]
  rcases p.push_cases b n with ⟨-, hn, hd⟩ | ⟨-, hroom, hn, hd⟩ | ⟨-, -, hn, hd⟩
  · exact ⟨by rw [hu', hn, ← hu]; exact hused, by rw [hd]; exact hdropped⟩
  · refine ⟨?_, by rw [hd]; exact hdropped⟩
    rw [hu', hn, List.length_append, List.length_singleton]
    omega
  · exact ⟨by rw [hu', hn, ← hu]; exact hused, by rw [hd]; exact Nat.min_le_left _ _⟩

theorem Port.safe_drop {p : Port} (h : p.Safe) : p.drop.Safe := ⟨h.1, Nat.min_le_left _ _⟩

/-- R175: the freed record makes room. -/
theorem Port.safe_freed {p : Port} (h : p.Safe) : ({ p with reservation := none } : Port).Safe := by
  obtain ⟨hused, hdropped⟩ := h
  refine ⟨?_, hdropped⟩
  have hu : p.used = p.notices.length + (if p.reservation.isSome then 1 else 0) := rfl
  rw [Port.used_of_freed]
  omega

/-- R174: a record is reserved where one is free. -/
theorem Port.safe_reserved {p : Port} (r : Reservation) (hfree : p.hasFree = true) (h : p.Safe) :
    ({ p with reservation := some r } : Port).Safe := by
  obtain ⟨-, hdropped⟩ := h
  refine ⟨?_, hdropped⟩
  have hroom : p.used < Config.noticeCapacity := of_decide_eq_true hfree
  rw [Port.used_of_held _ rfl]
  have hu : p.used = p.notices.length + (if p.reservation.isSome then 1 else 0) := rfl
  change p.notices.length + 1 ≤ _
  omega

/-- R177. -/
theorem Port.safe_tail {p : Port} {n : Notice} {rest : List Notice} (hq : p.notices = n :: rest) (h : p.Safe) :
    ({ p with notices := rest } : Port).Safe := by
  obtain ⟨hused, hdropped⟩ := h
  refine ⟨?_, hdropped⟩
  have hu : p.used = p.notices.length + (if p.reservation.isSome then 1 else 0) := rfl
  rw [hq, List.length_cons] at hu
  change rest.length + (if p.reservation.isSome then 1 else 0) ≤ _
  omega

theorem Port.safe_clocked {p : Port} (n : Nat) (h : p.Safe) : (p.clocked n).Safe := by
  obtain ⟨hn, hr, hd, -, -⟩ := p.clocked_keeps n
  refine ⟨?_, by rw [hd]; exact h.2⟩
  rw [Port.used, hn, hr]
  exact h.1

/-! ### The send unit (R124, R126, R128) -/

/-- The serial that an entry counts for, when it is a CUE (R128). -/
def SendEntry.cueSerial (e : SendEntry) : List Byte := if e.kind = .cue then [e.serial.getD 0] else []

theorem cueSerials_eq (u : SendUnit) :
    u.cueSerials = u.queue.flatMap SendEntry.cueSerial ++ u.issued.map (fun i => i.serial) := by
  unfold SendUnit.cueSerials
  congr 1
  induction u.queue with
  | nil => rfl
  | cons e es ih =>
    by_cases hk : e.kind = .cue <;> simp [SendEntry.cueSerial, hk, ← ih]

/-- Issued and queued CUEs are as many as their serials. -/
theorem length_cueSerials (u : SendUnit) : u.cueSerials.length = u.issued.length + u.queuedCues := by
  simp [SendUnit.cueSerials, SendUnit.queuedCues, Nat.add_comm]

theorem SendUnit.safe_iff (u : SendUnit) : u.Safe ↔
    u.queue.length ≤ Config.sendCapacity ∧ (∀ e ∈ u.queue.tail, e.inFlight = false) ∧
      u.cueSerials.length ≤ Config.issuedCapacity ∧ u.cueSerials.Nodup ∧
      ∀ e ∈ u.queue, e.kind ≠ .message → e.serial.isSome = true := by
  rw [length_cueSerials]

/-- Fewer entries and no new serial: the bounds stay. -/
theorem SendUnit.Safe.of_subperm {u v : SendUnit} (h : u.Safe) (hq : v.queue.Sublist u.queue)
    (hs : v.cueSerials.Subperm u.cueSerials) : v.Safe := by
  rw [SendUnit.safe_iff] at h ⊢
  obtain ⟨hlen, htail, hcount, hnodup, hser⟩ := h
  obtain ⟨l, hperm, hsub⟩ := hs
  refine ⟨hq.length_le.trans hlen, fun e he => htail e (hq.tail.subset he), ?_, ?_, fun e he => hser e (hq.subset he)⟩
  · rw [← hperm.length_eq]; exact hsub.length_le.trans hcount
  · exact hperm.nodup_iff.1 (hnodup.sublist hsub)

theorem flatMap_cueSerial_subperm {es fs : List SendEntry} (h : es.Sublist fs) :
    (es.flatMap SendEntry.cueSerial).Subperm (fs.flatMap SendEntry.cueSerial) := by
  induction h with
  | slnil => exact List.Subperm.refl _
  | cons e _ ih => exact ih.trans (List.sublist_append_right _ _).subperm
  | cons_cons e _ ih =>
    rw [List.flatMap_cons, List.flatMap_cons]
    exact (List.Subperm.refl _).append ih

/-- R133: an ending adds at most the serial of its own CUE. -/
theorem issuedAfter_subperm (e : SendEntry) (o : SendOutcome) (l : List Issued) :
    ((issuedAfter e o l).map (fun i => i.serial)).Subperm (e.cueSerial ++ l.map (fun i => i.serial)) := by
  unfold issuedAfter
  split
  · rename_i hin
    have hk : e.kind = .cue := by
      simp only [entersIssued, Bool.and_eq_true, beq_iff_eq] at hin
      exact hin.1
    simp only [SendEntry.cueSerial, hk, if_true, List.map_append, List.map_cons, List.map_nil]
    exact List.perm_append_comm.subperm
  · split
    · exact ((List.filter_sublist).map _).subperm.trans (List.sublist_append_right _ _).subperm
    · exact (List.sublist_append_right _ _).subperm

theorem issuedByEnding_subperm (es : List SendEntry) :
    ((issuedByEnding es).map (fun i => i.serial)).Subperm (es.flatMap SendEntry.cueSerial) := by
  induction es with
  | nil => exact List.Subperm.refl _
  | cons e es ih =>
    cases hk : (e.kind == SendKind.cue && e.brokenSeen) with
    | false =>
      simp only [issuedByEnding, List.filter_cons, hk, Bool.false_eq_true, if_false] at ih ⊢
      exact ih.trans (List.sublist_append_right _ _).subperm
    | true =>
      have hcue : e.kind = .cue := by simp only [Bool.and_eq_true, beq_iff_eq] at hk; exact hk.1
      simp only [issuedByEnding, List.filter_cons, hk, if_true, List.map_cons, List.flatMap_cons] at ih ⊢
      rw [SendEntry.cueSerial, if_pos hcue]
      exact (List.Subperm.refl [e.serial.getD 0]).append ih

/-- R132, R133: the head ends, whatever its counts became. -/
theorem SendUnit.Safe.ended {u : SendUnit} {e e' : SendEntry} {rest : List SendEntry} (h : u.Safe) (hq : u.queue = e :: rest)
    (hk : e'.kind = e.kind) (hs : e'.serial = e.serial) (o : SendOutcome) :
    ({ u with queue := rest, issued := issuedAfter e' o u.issued } : SendUnit).Safe := by
  refine h.of_subperm (by rw [hq]; exact List.sublist_cons_self _ _) ?_
  rw [cueSerials_eq, cueSerials_eq, hq, List.flatMap_cons]
  have hser : e'.cueSerial = e.cueSerial := by rw [SendEntry.cueSerial, SendEntry.cueSerial, hk, hs]
  have hi := issuedAfter_subperm e' o u.issued
  rw [hser] at hi
  refine ((List.Subperm.refl _).append hi).trans (List.Perm.subperm ?_)
  rw [← List.append_assoc]
  exact List.perm_append_comm.append_right _

/-- R132: the head goes back to the queue, or onto the line. -/
theorem SendUnit.Safe.headReplaced {u : SendUnit} {e e' : SendEntry} {rest : List SendEntry} (h : u.Safe)
    (hq : u.queue = e :: rest) (hk : e'.kind = e.kind) (hs : e'.serial = e.serial) :
    ({ u with queue := e' :: rest } : SendUnit).Safe := by
  rw [SendUnit.safe_iff, cueSerials_eq, hq, List.flatMap_cons] at h
  obtain ⟨hlen, htail, hcount, hnodup, hser⟩ := h
  have hcs : e'.cueSerial = e.cueSerial := by rw [SendEntry.cueSerial, SendEntry.cueSerial, hk, hs]
  rw [SendUnit.safe_iff, cueSerials_eq]
  simp only [List.flatMap_cons, hcs]
  refine ⟨hlen, htail, hcount, hnodup, fun x hx => ?_⟩
  rcases List.mem_cons.1 hx with rfl | hx
  · rw [hk, hs]; exact hser e List.mem_cons_self
  · exact hser x (List.mem_cons_of_mem _ hx)

/-- R124, R126: an entry joins the tail where there is room. -/
theorem SendUnit.Safe.joined {u : SendUnit} (h : u.Safe) (e : SendEntry) (hroom : u.queueRoom = true)
    (hflight : e.inFlight = false) (hser : e.kind ≠ .message → e.serial.isSome = true)
    (hcue : e.kind = .cue → u.serialRoom = true ∧ e.serial.getD 0 ∉ u.cueSerials) :
    ({ u with queue := u.queue ++ [e] } : SendUnit).Safe := by
  rw [SendUnit.safe_iff] at h
  obtain ⟨hlen, htail, hcount, hnodup, hsers⟩ := h
  have hroom' : u.queue.length < Config.sendCapacity := of_decide_eq_true hroom
  have hperm : ({ u with queue := u.queue ++ [e] } : SendUnit).cueSerials.Perm (e.cueSerial ++ u.cueSerials) := by
    rw [cueSerials_eq, cueSerials_eq]
    simp only [List.flatMap_append, List.flatMap_cons, List.flatMap_nil, List.append_nil]
    rw [← List.append_assoc]
    exact List.perm_append_comm.append_right _
  rw [SendUnit.safe_iff]
  refine ⟨?_, fun x hx => ?_, ?_, ?_, fun x hx => ?_⟩
  · simp only [List.length_append, List.length_singleton]; omega
  · revert hx
    cases hq : u.queue with
    | nil => exact fun hx => absurd hx (List.not_mem_nil)
    | cons f fs =>
      intro hx
      rcases List.mem_append.1 hx with hx | hx
      · exact htail x (by rw [hq]; exact hx)
      · rw [List.mem_singleton.1 hx]; exact hflight
  · rw [hperm.length_eq, List.length_append]
    by_cases hk : e.kind = .cue
    · have hr : u.issued.length + u.queuedCues < Config.issuedCapacity := of_decide_eq_true (hcue hk).1
      rw [length_cueSerials, SendEntry.cueSerial, if_pos hk, List.length_singleton]
      omega
    · rw [SendEntry.cueSerial, if_neg hk]; simpa using hcount
  · rw [hperm.nodup_iff]
    by_cases hk : e.kind = .cue
    · rw [SendEntry.cueSerial, if_pos hk]; exact List.nodup_cons.2 ⟨(hcue hk).2, hnodup⟩
    · rw [SendEntry.cueSerial, if_neg hk]; exact hnodup
  · rcases List.mem_append.1 hx with hx | hx
    · exact hsers x hx
    · rw [List.mem_singleton.1 hx]; exact hser

/-! ### The next free serial (R128) -/

/-- The search tries the values from the counter up, and stops at the first that is free. -/
theorem firstFree_spec (used : List Byte) (n : Nat) (c : Byte) :
    ∃ k, k ≤ n ∧ firstFree used n c = c + BitVec.ofNat 8 k ∧ (∀ j, j < k → c + BitVec.ofNat 8 j ∈ used) ∧
      (k < n → c + BitVec.ofNat 8 k ∉ used) := by
  induction n generalizing c with
  | zero => exact ⟨0, Nat.le_refl 0, by simp [firstFree], fun j hj => absurd hj (Nat.not_lt_zero j),
      fun h => absurd h (Nat.lt_irrefl 0)⟩
  | succ n ih =>
    unfold firstFree
    by_cases hc : used.contains c = true
    · obtain ⟨k, hk, hval, hused, hfree⟩ := ih (c + 1)
      have hnext : ∀ j : Nat, c + 1 + BitVec.ofNat 8 j = c + BitVec.ofNat 8 (j + 1) := by
        intro j
        rw [BitVec.add_assoc, BitVec.ofNat_add]
        congr 1
        exact BitVec.add_comm _ _
      refine ⟨k + 1, Nat.succ_le_succ hk, ?_, fun j hj => ?_, fun h => ?_⟩
      · rw [if_pos hc, hval, hnext]
      · cases j with
        | zero => simpa using hc
        | succ j => rw [← hnext]; exact hused j (Nat.lt_of_succ_lt_succ hj)
      · rw [← hnext]; exact hfree (Nat.lt_of_succ_lt_succ h)
    · refine ⟨0, Nat.zero_le _, by rw [if_neg hc]; simp, fun j hj => absurd hj (Nat.not_lt_zero j), fun _ => ?_⟩
      simpa using hc

/-- A queue and an issued list within their bounds leave a value free. -/
theorem SendUnit.Safe.length_usedSerials_lt {u : SendUnit} (h : u.Safe) : u.usedSerials.length < 256 := by
  obtain ⟨hq, -, hissued, -⟩ := h
  have hq8 : u.queue.length ≤ 8 := hq
  have hi32 : u.issued.length + u.queuedCues ≤ 32 := hissued
  have hfm := List.length_filterMap_le (fun e : SendEntry => e.serial) u.queue
  simp only [SendUnit.usedSerials, List.length_append, List.length_map]
  omega

/-- R128: the serial taken is `k` past the counter, free, and all before it are used. -/
theorem SendUnit.Safe.nextSerial_spec {u : SendUnit} (h : u.Safe) :
    ∃ k, k < 256 ∧ u.nextSerial = u.counter + BitVec.ofNat 8 k ∧ (∀ j, j < k → u.counter + BitVec.ofNat 8 j ∈ u.usedSerials) ∧
      u.nextSerial ∉ u.usedSerials := by
  obtain ⟨k, hk, hval, hused, hfree⟩ := firstFree_spec u.usedSerials 256 u.counter
  have hlt : k < 256 := by
    refine Nat.lt_of_le_of_ne hk fun hall => ?_
    subst hall
    have hsub : ((List.range 256).map fun j => u.counter + BitVec.ofNat 8 j) ⊆ u.usedSerials := by
      intro x hx
      obtain ⟨j, hj, rfl⟩ := List.mem_map.1 hx
      exact hused j (List.mem_range.1 hj)
    have hnodup : ((List.range 256).map fun j => u.counter + BitVec.ofNat 8 j).Nodup := by
      refine List.Nodup.map_on (fun a ha b hb hab => ?_) List.nodup_range
      have ha' := List.mem_range.1 ha
      have hb' := List.mem_range.1 hb
      have := congrArg BitVec.toNat ((BitVec.add_right_inj _).1 hab)
      rw [BitVec.toNat_ofNat, BitVec.toNat_ofNat] at this
      omega
    have hle := (hnodup.subperm hsub).length_le
    rw [List.length_map, List.length_range] at hle
    exact absurd h.length_usedSerials_lt (Nat.not_lt.2 hle)
  exact ⟨k, hlt, hval, hused, (congrArg (· ∉ u.usedSerials) hval).mpr (hfree hlt)⟩

/-- Every serial that a CUE of the queue or an issued entry holds is a used one. -/
theorem SendUnit.Safe.cueSerials_subset {u : SendUnit} (h : u.Safe) : u.cueSerials ⊆ u.usedSerials := by
  obtain ⟨-, -, -, -, hser⟩ := h
  intro x hx
  rcases List.mem_append.1 hx with hx | hx
  · obtain ⟨e, he, rfl⟩ := List.mem_map.1 hx
    obtain ⟨he, hk⟩ := List.mem_filter.1 he
    have hcue : e.kind = .cue := by simpa using hk
    obtain ⟨v, hv⟩ := Option.isSome_iff_exists.1 (hser e he (by rw [hcue]; decide))
    exact List.mem_append_left _ (List.mem_filterMap.2 ⟨e, he, by rw [hv]; rfl⟩)
  · exact List.mem_append_right _ hx

/-- Settles O23: the serial a CUE takes is free, and the first that is (R128). -/
theorem serialTakenIsTheFirstFree : Obligations.SerialTakenIsTheFirstFree := by
  intro u hu
  obtain ⟨k, hk, hval, hused, hfree⟩ := hu.nextSerial_spec
  refine ⟨hfree, fun n hn => hused n ?_⟩
  have hdiff : u.counter + BitVec.ofNat 8 k - u.counter = BitVec.ofNat 8 k := by
    rw [BitVec.add_comm, BitVec.add_sub_cancel]
  rwa [hval, hdiff, BitVec.toNat_ofNat, Nat.mod_eq_of_lt hk] at hn

/-- R126 to R129: a CUE joins with the next free serial. -/
theorem SendUnit.Safe.joinedCue {u : SendUnit} (h : u.Safe) (e : SendEntry) (hroom : u.queueRoom = true)
    (hserials : u.serialRoom = true) (hflight : e.inFlight = false) (hser : e.serial = some u.nextSerial) :
    ({ u with counter := u.nextSerial + 1, queue := u.queue ++ [e] } : SendUnit).Safe := by
  obtain ⟨k, -, -, -, hfree⟩ := h.nextSerial_spec
  exact SendUnit.Safe.joined (u := u) h e hroom hflight (fun _ => by rw [hser]; rfl)
    (fun _ => ⟨hserials, fun hx => hfree (by rw [hser] at hx; exact h.cueSerials_subset hx)⟩)

/-- R137: no entry is left in the queue. -/
theorem SendUnit.Safe.silenced {u : SendUnit} (h : u.Safe) (slot : BeaconSlot) (offered : Offered) :
    ({ u with queue := [], issued := u.issued ++ issuedByEnding u.queue, slot := slot, offered := offered } : SendUnit).Safe := by
  refine h.of_subperm (List.nil_sublist _) ?_
  rw [cueSerials_eq, cueSerials_eq]
  simp only [List.flatMap_nil, List.nil_append, List.map_append]
  exact List.perm_append_comm.subperm.trans ((issuedByEnding_subperm u.queue).append (List.Subperm.refl _))

/-- R135: PURGE leaves the head in flight, marked, or nothing. -/
theorem SendUnit.Safe.purged {u : SendUnit} (h : u.Safe) (offered : Offered) :
    ({ u with queue := purgedQueue u.queue, issued := u.issued ++ issuedByEnding (purgedEntries u.queue),
              offered := offered } : SendUnit).Safe := by
  cases hq : u.queue with
  | nil =>
    have hall := h.silenced u.slot offered
    rwa [hq] at hall
  | cons e rest =>
    cases hf : e.inFlight with
    | true =>
      have hkept := h.headReplaced (e' := { e with retire := true }) hq rfl rfl
      simp only [purgedQueue, purgedEntries, hf, if_true]
      rw [hf] at hkept
      refine hkept.of_subperm (List.cons_sublist_cons.2 (List.nil_sublist _)) ?_
      rw [cueSerials_eq, cueSerials_eq]
      simp only [List.flatMap_cons, List.flatMap_nil, List.append_nil, List.map_append, List.append_assoc]
      exact (List.Subperm.refl _).append
        (List.perm_append_comm.subperm.trans ((issuedByEnding_subperm rest).append (List.Subperm.refl _)))
    | false =>
      have hall := h.silenced u.slot offered
      simp only [purgedQueue, purgedEntries, hf, Bool.false_eq_true, if_false]
      rwa [hq] at hall

/-! ### The counted records (R142, R162, R163) -/

/-- R142: the extra count of a capture in its range. -/
def Capture.Bounded : Capture → Prop
  | .held _ _ extra _ => extra ≤ Config.extraMax
  | .expired _ _ extra => extra ≤ Config.extraMax
  | .empty => True

/-- R162, R163: the counts of a peer record in their ranges. -/
def PeerRecord.Bounded (r : PeerRecord) : Prop :=
  r.framesHeard ≤ Config.framesHeardMax ∧ r.silenceCount ≤ Config.silenceLimit ∧
    (r.presence = .present → r.silenceCount < Config.silenceLimit)

theorem State.countsSafe_iff (s : State) : s.CountsSafe ↔
    (s.peers.length = 62 ∧ ∀ r ∈ s.peers, r.Bounded) ∧ ∀ i : Fin 4, (fourGet s.inputs i).capture.Bounded := by
  constructor
  · rintro ⟨hlen, hcounts, hpresent, hinputs⟩
    refine ⟨⟨hlen, fun r hr => ⟨(hcounts r hr).1, (hcounts r hr).2, hpresent r hr⟩⟩, fun i => ?_⟩
    have hi := hinputs i
    revert hi
    cases (fourGet s.inputs i).capture <;> exact id
  · rintro ⟨⟨hlen, hpeers⟩, hinputs⟩
    refine ⟨hlen, fun r hr => ⟨(hpeers r hr).1, (hpeers r hr).2.1⟩, fun r hr => (hpeers r hr).2.2, fun i => ?_⟩
    have hi := hinputs i
    revert hi
    cases (fourGet s.inputs i).capture <;> exact id

theorem PeerRecord.bounded_reset : PeerRecord.reset.Bounded := by
  exact ⟨Nat.zero_le _, Nat.zero_le _, fun h => by cases h⟩

theorem PeerRecord.Bounded.heard {r : PeerRecord} (now : Time) (beacon : Bool) : (r.heard now beacon).Bounded :=
  ⟨Nat.min_le_left _ _, Nat.zero_le _, fun _ => Nat.zero_lt_succ 7⟩

theorem PeerRecord.Bounded.aged {r : PeerRecord} (h : r.Bounded) : r.aged.Bounded := by
  obtain ⟨hframes, hsilence, hpresent⟩ := h
  unfold PeerRecord.aged
  split
  · split
    · exact ⟨hframes, Nat.le_refl _, fun h => by cases h⟩
    · rename_i hlt
      exact ⟨hframes, (Nat.lt_of_not_le hlt).le, fun _ => Nat.lt_of_not_le hlt⟩
  · exact ⟨hframes, hsilence, hpresent⟩

theorem Capture.Bounded.captureEdge {c : Capture} (now : Time) (e : Edge) (h : c.Bounded) : (captureEdge now e c).Bounded := by
  cases c with
  | empty | expired => exact Nat.zero_le _
  | held => exact Nat.min_le_left _ _

theorem Capture.Bounded.holdLimitAt {c : Capture} (adv : Advance) (h : c.Bounded) : (holdLimitAt adv c).Bounded := by
  cases c with
  | held t e extra holdEnd =>
    by_cases hr : adv.reaches holdEnd = true
    · rw [show Machine.holdLimitAt adv (.held t e extra holdEnd) = .expired t e extra from if_pos hr]; exact h
    · rw [show Machine.holdLimitAt adv (.held t e extra holdEnd) = .held t e extra holdEnd from if_neg hr]; exact h
  | empty | expired => exact h

@[simp] theorem fourGet_fourSet_same {α : Type} (f : Four α) (i : Fin 4) (x : α) : fourGet (fourSet f i x) i = x := by
  match i with
  | 0 | 1 | 2 | 3 => rfl

theorem fourGet_fourSet_of_ne {α : Type} (f : Four α) {i j : Fin 4} (x : α) (h : j ≠ i) :
    fourGet (fourSet f i x) j = fourGet f j := by
  match i, j with
  | 0, 0 | 1, 1 | 2, 2 | 3, 3 => exact absurd rfl h
  | 0, 1 | 0, 2 | 0, 3 | 1, 0 | 1, 2 | 1, 3 | 2, 0 | 2, 1 | 2, 3 | 3, 0 | 3, 1 | 3, 2 => rfl

@[simp] theorem fourGet_fourMap {α β : Type} (g : α → β) (f : Four α) (i : Fin 4) : fourGet (fourMap g f) i = g (fourGet f i) := by
  match i with
  | 0 | 1 | 2 | 3 => rfl

@[simp] theorem fourSet_fourSet {α : Type} (f : Four α) (i : Fin 4) (x y : α) : fourSet (fourSet f i x) i y = fourSet f i y := by
  match i with
  | 0 | 1 | 2 | 3 => rfl

/-- An update of one input that leaves its capture in range. -/
theorem State.CountsSafe.fourSet {s : State} (i : Fin 4) (x : TriggerInput) (hx : x.capture.Bounded) (h : s.CountsSafe) :
    (s.withInputs (fourSet s.inputs i x)).CountsSafe := by
  rw [State.countsSafe_iff] at h ⊢
  refine ⟨h.1, fun j => ?_⟩
  by_cases hj : j = i
  · subst hj; rw [State.withInputs_inputs, fourGet_fourSet_same]; exact hx
  · rw [State.withInputs_inputs, fourGet_fourSet_of_ne _ _ hj]; exact h.2 j

theorem State.CountsSafe.bounded {s : State} (h : s.CountsSafe) (i : Fin 4) : (fourGet s.inputs i).capture.Bounded :=
  ((State.countsSafe_iff s).1 h).2 i

end Sys2Proof.Machine
end

section
/-! SUPPORT. The line interface is used only in ACTIVE (R90): which updates of the line record, of what is in hand and of the send unit keep
that, and that each operation's update is one of them. -/

namespace Sys2Proof.Machine

/-! ### Updates that keep the line's use in its bounds -/

/-- The line record itself shows the line in use: it drives, paces, times a half-period, or sends. -/
def Line.uses (l : Line) : Bool :=
  l.drivesPace || l.drivesData || l.driving || l.halfPeriod != .none || l.role == .sender

theorem State.usesLine_eq (s : State) : s.usesLine = (s.line.uses || s.send.offered != .none) := rfl

theorem Line.uses_eq_false_iff (l : Line) : l.uses = false ↔
    l.drivesPace = false ∧ l.drivesData = false ∧ l.driving = false ∧ l.halfPeriod = .none ∧ l.role ≠ .sender := by
  simp [Line.uses, and_assoc]

theorem Line.uses_iff (l : Line) : l.uses = true ↔
    l.drivesPace = true ∨ l.drivesData = true ∨ l.driving = true ∨ l.halfPeriod ≠ .none ∨ l.role = .sender := by
  simp [Line.uses, or_assoc]

/-- A frame, or something a frame left, is at the line interface: the station is neither in SETUP nor in HALTED. -/
def State.online (s : State) : Prop :=
  s.line.state ≠ .off ∨ s.line.heldEnd ≠ none ∨ s.work.arbLost = true ∨ s.work.evaluate = true ∨
    (s.station.state ≠ .setup ∧ s.station.state ≠ .halted)

theorem State.LineSafe.awake {s : State} (h : s.LineSafe) (ho : s.online) :
    s.station.state ≠ .setup ∧ s.station.state ≠ .halted := by
  obtain ⟨-, -, hoff, -⟩ := h
  rcases ho with ho | ho | ho | ho | ho
  · exact ⟨fun hs => ho (hoff (.inl hs)).1, fun hs => ho (hoff (.inr hs)).1⟩
  · exact ⟨fun hs => ho (hoff (.inl hs)).2.1, fun hs => ho (hoff (.inr hs)).2.1⟩
  · exact ⟨fun hs => by simp [(hoff (.inl hs)).2.2.1] at ho, fun hs => by simp [(hoff (.inr hs)).2.2.1] at ho⟩
  · exact ⟨fun hs => by simp [(hoff (.inl hs)).2.2.2] at ho, fun hs => by simp [(hoff (.inr hs)).2.2.2] at ho⟩
  · exact ho

theorem State.LineSafe.notInReset {s : State} (h : s.LineSafe) (ho : s.online) : s.inReset = false := by
  obtain ⟨-, hne⟩ := h.awake ho
  obtain ⟨-, -, -, hreset⟩ := h
  exact Bool.eq_false_iff.2 fun hr => hne (hreset hr)

/-- What a new line record must be for the line's use to stay in its bounds. -/
structure LineStep (s : State) (l : Line) : Prop where
  uses : l.uses = true → s.usesLine = true ∨ s.line.state = .sending ∨ s.station.state = .active
  sending : l.state = .sending → l.role = .sender ∨ (s.line.state = .sending ∧ l.role = s.line.role)
  off : (l.state = s.line.state ∧ (l.heldEnd = none ∨ l.heldEnd = s.line.heldEnd)) ∨ s.online

theorem State.LineSafe.usesLine_of_sending {s : State} (h : s.LineSafe) (hs : s.line.state = .sending) : s.usesLine = true := by
  obtain ⟨-, hrole, -, -⟩ := h
  rw [State.usesLine_eq, Bool.or_eq_true, Line.uses_iff]
  exact .inl (.inr (.inr (.inr (.inr (hrole hs)))))

theorem State.LineSafe.withLine {s : State} {l : Line} (hl : LineStep s l) (h : s.LineSafe) : (s.withLine l).LineSafe := by
  have hawake := h.awake
  have hsendingUse := h.usesLine_of_sending
  obtain ⟨huse, hrole, hoff, hreset⟩ := h
  refine ⟨fun hu => ?_, fun hs => ?_, fun hs => ?_, hreset⟩
  · rw [State.usesLine_eq, Bool.or_eq_true] at hu
    rcases hu with hu | hu
    · rcases hl.uses hu with h1 | h1 | h1
      · exact huse h1
      · exact huse (hsendingUse h1)
      · exact h1
    · exact huse (by rw [State.usesLine_eq, Bool.or_eq_true]; exact .inr hu)
  · rcases hl.sending hs with h1 | ⟨h1, h2⟩
    · exact h1
    · exact h2.trans (hrole h1)
  · rcases hl.off with ⟨h1, h2⟩ | ho
    · obtain ⟨ho, hheld, hwork⟩ := hoff hs
      refine ⟨h1.trans ho, ?_, hwork⟩
      rcases h2 with h2 | h2
      · exact h2
      · exact h2.trans hheld
    · exact absurd hs (not_or.2 (hawake ho))

/-- A record that drives nothing and sends nothing may follow wherever the line is not OFF. -/
theorem LineStep.of_idle {s : State} {l : Line} (hu : l.uses = false) (hs : l.state ≠ .sending) (ho : s.online) :
    LineStep s l :=
  ⟨fun h => by simp [hu] at h, fun h => absurd h hs, .inr ho⟩

/-- The wires as seen and the low timers say nothing of the line's use. -/
theorem LineStep.of_uses_le {s : State} {l : Line} (hu : l.uses = true → s.line.uses = true) (hs : l.state = s.line.state)
    (hr : l.role = s.line.role) (hh : l.heldEnd = none ∨ l.heldEnd = s.line.heldEnd) : LineStep s l :=
  ⟨fun h => .inl (by rw [State.usesLine_eq, hu h, Bool.true_or]), fun h => .inr ⟨hs ▸ h, hr⟩, .inl ⟨hs, hh⟩⟩

@[simp] theorem Line.frameOver_uses (l : Line) (next : LineState) : (l.frameOver next).uses = false := rfl
@[simp] theorem Line.frameOver_state (l : Line) (next : LineState) : (l.frameOver next).state = next := rfl
@[simp] theorem Line.frameOver_role (l : Line) (next : LineState) : (l.frameOver next).role = .none := rfl
@[simp] theorem Line.frameOver_heldEnd (l : Line) (next : LineState) : (l.frameOver next).heldEnd = l.heldEnd := rfl
@[simp] theorem Line.seePace_uses (l : Line) (v : Level) : (l.seePace v).uses = l.uses := rfl
@[simp] theorem Line.seeData_uses (l : Line) (v : Level) : (l.seeData v).uses = l.uses := rfl
@[simp] theorem Line.seeBothHigh_uses (l : Line) : l.seeBothHigh.uses = l.uses := rfl
@[simp] theorem Line.recovered_uses (l : Line) : l.recovered.uses = l.uses := rfl
@[simp] theorem Line.idleBroken_uses (l : Line) : l.idleBroken.uses = l.uses := rfl
@[simp] theorem Line.atEvaluation_uses (l : Line) : l.atEvaluation.uses = l.uses := rfl

theorem Line.stuck_eq (l : Line) (w : Wire) : (l.stuck w).uses = l.uses ∧ (l.stuck w).state = l.state ∧
    (l.stuck w).role = l.role ∧ (l.stuck w).heldEnd = l.heldEnd := by
  cases w <;> exact ⟨rfl, rfl, rfl, rfl⟩

/-- A change of line state, where no frame of this station begins. -/
theorem LineStep.of_state {s : State} {l : Line} (hu : l.uses = s.line.uses) (hs : l.state ≠ .sending) (ho : s.online) :
    LineStep s l :=
  ⟨fun h => .inl (by rw [State.usesLine_eq, ← hu, h, Bool.true_or]), fun h => absurd h hs, .inr ho⟩

/-- R90, R160: the wires released. -/
theorem lineStep_releaseWires (s : State) : LineStep s s.line.releaseWires := by
  refine .of_uses_le (fun h => ?_) rfl rfl (.inr rfl)
  have hrole : s.line.role = .sender := by simpa [Line.uses, Line.releaseWires] using h
  rw [Line.uses_iff]
  exact .inr (.inr (.inr (.inr hrole)))

/-- R93: the record at a start condition; an own frame is one that stood offered. -/
theorem lineStep_started (s : State) (own : Bool) (tx : List Bool) (hidle : s.line.state = .idle)
    (hown : own = true → s.send.offered ≠ .none) :
    LineStep s (s.line.started own (s.station.state == .active) tx) := by
  have ho : s.online := .inl (by rw [hidle]; decide)
  cases own with
  | true =>
    refine ⟨fun _ => .inl ?_, fun _ => .inl rfl, .inr ho⟩
    rw [State.usesLine_eq, Bool.or_eq_true]
    exact .inr (by simpa using hown rfl)
  | false =>
    refine ⟨fun h => .inr (.inr ?_), fun h => by simp [Line.started] at h, .inr ho⟩
    simpa [Line.uses, Line.started] using h

/-- R91: only a station that uses the line paces a bit. -/
theorem Line.uses_of_driving {l : Line} (h : l.driving = true) : l.uses = true := by
  rw [Line.uses_iff]; exact .inr (.inr (.inl h))

theorem Line.uses_of_paces {l : Line} (h : l.paces = true) : l.uses = true ∨ l.state = .sending := by
  simp only [Line.paces, Bool.or_eq_true, beq_iff_eq, Bool.and_eq_true] at h
  rcases h with h | ⟨-, h⟩
  · exact .inr h
  · exact .inl (Line.uses_of_driving h)

/-- R92: the record at a sampled bit. -/
theorem lineStep_sampledAt (s : State) (p : Nat) (data : Level) (n : Option Nat) :
    LineStep s (s.line.sampledAt p data n) := by
  refine ⟨fun h => ?_, fun h => .inr ⟨h, rfl⟩, .inl ⟨rfl, .inr rfl⟩⟩
  rw [Line.uses_iff] at h
  have hu : s.line.uses = true ∨ s.line.state = .sending := by
    rcases h with h | h | h | h | h
    · exact absurd h Bool.false_ne_true
    · exact .inl ((Line.uses_iff _).2 (.inr (.inl h)))
    · exact .inl (Line.uses_of_driving h)
    · refine Line.uses_of_paces (l := s.line) ?_
      by_contra hp
      exact h (if_neg hp)
    · exact .inl ((Line.uses_iff _).2 (.inr (.inr (.inr (.inr h)))))
  exact hu.imp (fun h => by rw [State.usesLine_eq, h, Bool.true_or]) .inl

/-- A fall of PACE changes what is driven and timed, and no more. -/
theorem Line.bitBegun_eq (l : Line) : ∃ pace data half stretch, l.bitBegun = { l.seePace .low with
    stallTime := 0, drivesPace := pace, drivesData := data, halfPeriod := half, stretch := stretch } := by
  unfold Line.bitBegun
  dsimp only
  split
  · exact ⟨_, _, _, l.stretch, rfl⟩
  · split
    · split
      · exact ⟨_, _, _, _, rfl⟩
      · split
        · exact ⟨_, _, _, l.stretch, rfl⟩
        · split
          · exact ⟨_, _, _, l.stretch, rfl⟩
          · exact ⟨_, l.drivesData, _, l.stretch, rfl⟩
    · exact ⟨l.drivesPace, l.drivesData, l.halfPeriod, l.stretch, rfl⟩

@[simp] theorem Line.bitBegun_state (l : Line) : l.bitBegun.state = l.state := by
  obtain ⟨pace, data, half, stretch, h⟩ := l.bitBegun_eq; rw [h]; rfl

@[simp] theorem Line.bitBegun_role (l : Line) : l.bitBegun.role = l.role := by
  obtain ⟨pace, data, half, stretch, h⟩ := l.bitBegun_eq; rw [h]; rfl

@[simp] theorem Line.bitBegun_heldEnd (l : Line) : l.bitBegun.heldEnd = l.heldEnd := by
  obtain ⟨pace, data, half, stretch, h⟩ := l.bitBegun_eq; rw [h]; rfl

/-- R91, R92, R100, R101: the record at a fall of PACE that begins a bit. -/
theorem lineStep_bitBegun (s : State) : LineStep s s.line.bitBegun := by
  refine ⟨fun h => ?_, fun h => .inr ⟨by rwa [Line.bitBegun_state] at h, Line.bitBegun_role _⟩,
    .inl ⟨Line.bitBegun_state _, .inr (Line.bitBegun_heldEnd _)⟩⟩
  by_cases hs : s.line.state = .sending
  · exact .inr (.inl hs)
  · refine .inl ?_
    rw [State.usesLine_eq, Bool.or_eq_true]
    refine .inl ?_
    by_cases ha : s.line.state = .answering ∧ s.line.driving = true
    · exact Line.uses_of_driving ha.2
    · unfold Line.bitBegun at h
      dsimp only [Line.seePace] at h
      rw [if_neg hs, if_neg ha] at h
      exact h

/-- R91: a half-period that runs out belongs to a station that uses the line. -/
theorem lineStep_halfPeriodOver (s : State) : LineStep s s.line.halfPeriodOver := by
  unfold Line.halfPeriodOver
  split
  · exact .of_uses_le id rfl rfl (.inr rfl)
  · rename_i hp
    have hu : s.line.uses = true := (Line.uses_iff _).2 (.inr (.inr (.inr (.inl (by rw [hp]; decide)))))
    split
    · exact .of_uses_le (fun _ => hu) rfl rfl (.inr rfl)
    · exact .of_uses_le (fun _ => hu) rfl rfl (.inr rfl)
  · rename_i hp
    have hu : s.line.uses = true := (Line.uses_iff _).2 (.inr (.inr (.inr (.inl (by rw [hp]; decide)))))
    split
    · exact .of_uses_le (fun _ => hu) rfl rfl (.inr rfl)
    · exact .of_uses_le (fun _ => hu) rfl rfl (.inr rfl)

/-- R100: the answer drives DATA only at a station that drives in this frame. -/
theorem lineStep_answeredWith (s : State) (a : Answer) : LineStep s (s.line.answeredWith a) := by
  unfold Line.answeredWith
  dsimp only
  split
  · rename_i hd
    have hu : s.line.uses = true := Line.uses_of_driving hd.1
    split
    · exact .of_uses_le (fun _ => hu) rfl rfl (.inr rfl)
    · exact .of_uses_le (fun _ => hu) rfl rfl (.inr rfl)
  · exact .of_uses_le id rfl rfl (.inr rfl)

/-- R98: the loser goes on as a receiver. -/
theorem lineStep_lost (s : State) (h : s.work.arbLost = true) :
    LineStep s { s.line with
      state := .receiving, role := .receiver, arbitration := .lost, tx := [], halfPeriod := .none, drivesPace := false,
      drivesData := false } := by
  refine ⟨fun hu => .inl ?_, fun h => by simp at h, .inr (.inr (.inr (.inl h)))⟩
  have hd : s.line.driving = true := by simpa [Line.uses] using hu
  rw [State.usesLine_eq, Line.uses_of_driving hd, Bool.true_or]

theorem lineStep_atEvaluation (s : State) (h : s.work.evaluate = true) : LineStep s s.line.atEvaluation :=
  .of_state rfl (by simp [Line.atEvaluation]) (.inr (.inr (.inr (.inl h))))

/-! ### The send unit, what is in hand, and the station record -/

/-- What a new send unit must be: within its bounds, and offering only in ACTIVE. -/
structure SendStep (s : State) (u : SendUnit) : Prop where
  safe : s.send.Safe → u.Safe
  offered : u.offered ≠ .none → s.send.offered ≠ .none ∨ s.station.state = .active

theorem State.LineSafe.withSend {s : State} {u : SendUnit} (hu : SendStep s u) (h : s.LineSafe) : (s.withSend u).LineSafe := by
  obtain ⟨huse, hrole, hoff, hreset⟩ := h
  refine ⟨fun h => ?_, hrole, hoff, hreset⟩
  rw [State.usesLine_eq, Bool.or_eq_true] at h
  rcases h with h | h
  · exact huse (by rw [State.usesLine_eq, Bool.or_eq_true]; exact .inl h)
  · rcases hu.offered (by simpa using h) with h' | h'
    · exact huse (by rw [State.usesLine_eq, Bool.or_eq_true]; exact .inr (by simpa using h'))
    · exact h'

/-- What may newly be in hand: the advance as it is, and nothing of a frame where no frame is. -/
structure WorkStep (s : State) (w : Work) : Prop where
  advance : w.advance = s.work.advance
  frame : (w.arbLost = true → s.work.arbLost = true) ∧ (w.evaluate = true → s.work.evaluate = true) ∨ s.online

theorem State.LineSafe.withWork {s : State} {w : Work} (hw : WorkStep s w) (h : s.LineSafe) : (s.withWork w).LineSafe := by
  have hawake := h.awake
  obtain ⟨huse, hrole, hoff, hreset⟩ := h
  refine ⟨huse, hrole, fun hs => ?_, hreset⟩
  rcases hw.frame with ⟨ha, he⟩ | ho
  · obtain ⟨h1, h2, h3, h4⟩ := hoff hs
    refine ⟨h1, h2, Bool.eq_false_iff.2 fun h => ?_, Bool.eq_false_iff.2 fun h => ?_⟩
    · simp [ha h] at h3
    · simp [he h] at h4
  · exact absurd hs (not_or.2 (hawake ho))

end Sys2Proof.Machine
end

section
/-! SUPPORT. The cue table and the points: table order (R10, R11), and that every operation keeps the table whole, with one entry for a
key and one restore for a line-owned point (R1, R2, R5, R6, R14, R61, R66). -/

namespace Sys2Proof.Machine

/-! ### Table order (R10, R11) -/

theorem aheadOf_iff (base : Time) (e f : CueEntry) : aheadOf base e f = true ↔
    distance e.fireTime base < distance f.fireTime base ∨
      (distance e.fireTime base = distance f.fireTime base ∧ (e.key.issuer.toNat < f.key.issuer.toNat ∨
        (e.key.issuer = f.key.issuer ∧ e.key.serial.toNat < f.key.serial.toNat))) := by
  unfold aheadOf
  split
  · rename_i hd
    simp [hd]
  · rename_i hd
    have hd' : distance e.fireTime base = distance f.fireTime base := not_not.1 hd
    split
    · rename_i hi
      simp [hd', hi]
    · rename_i hi
      simp [hd', not_not.1 hi]

theorem aheadOf_trans {base : Time} {e f g : CueEntry} (h : aheadOf base e f = true) (h' : aheadOf base f g = true) :
    aheadOf base e g = true := by
  rw [aheadOf_iff] at h h' ⊢
  rcases h with h | ⟨h, h1 | ⟨h1, h2⟩⟩ <;> rcases h' with h' | ⟨h', h1' | ⟨h1', h2'⟩⟩
  · exact .inl (h.trans h')
  · exact .inl (h' ▸ h)
  · exact .inl (h' ▸ h)
  · exact .inl (h ▸ h')
  · exact .inr ⟨h.trans h', .inl (h1.trans h1')⟩
  · exact .inr ⟨h.trans h', .inl (h1' ▸ h1)⟩
  · exact .inl (h ▸ h')
  · exact .inr ⟨h.trans h', .inl (h1 ▸ h1')⟩
  · exact .inr ⟨h.trans h', .inr ⟨h1.trans h1', h2.trans h2'⟩⟩

/-- Of two entries with different keys one stands ahead of the other. -/
theorem aheadOf_total {base : Time} {e f : CueEntry} (hk : f.key ≠ e.key) (h : ¬aheadOf base f e = true) :
    aheadOf base e f = true := by
  rw [aheadOf_iff] at h ⊢
  have hk' : ¬(f.key.issuer = e.key.issuer ∧ f.key.serial = e.key.serial) := by
    rintro ⟨h1, h2⟩
    apply hk
    cases hf : f.key; cases he : e.key
    simp_all
  simp only [not_or, not_and, Nat.not_lt] at h
  obtain ⟨hd, hrest⟩ := h
  rcases Nat.lt_or_eq_of_le hd with hlt | heq
  · exact .inl hlt
  · refine .inr ⟨heq, ?_⟩
    obtain ⟨hi, hs⟩ := hrest heq.symm
    rcases Nat.lt_or_eq_of_le hi with hilt | hieq
    · exact .inl hilt
    · have hi' : f.key.issuer = e.key.issuer := BitVec.eq_of_toNat_eq hieq.symm
      refine .inr ⟨hi'.symm, Nat.lt_of_le_of_ne (hs hi') fun h => hk' ⟨hi', BitVec.eq_of_toNat_eq h.symm⟩⟩

/-- The table order, measured at a line time. -/
abbrev InTableOrder (base : Time) (es : List CueEntry) : Prop := es.Pairwise (fun x y => aheadOf base x y = true)

/-- R10, R11: an insertion keeps the order. -/
theorem InTableOrder.insertEntry {base : Time} {es : List CueEntry} (h : InTableOrder base es) (e : CueEntry)
    (hk : ∀ x ∈ es, x.key ≠ e.key) : InTableOrder base (insertEntry base e es) := by
  induction es with
  | nil => exact List.pairwise_singleton _ _
  | cons f fs ih =>
    obtain ⟨hf, hfs⟩ := List.pairwise_cons.1 h
    unfold Machine.insertEntry
    split
    · rename_i hfe
      refine List.pairwise_cons.2 ⟨fun x hx => ?_, ih hfs fun x hx => hk x (List.mem_cons_of_mem _ hx)⟩
      rcases (mem_insertEntry base e x fs).1 hx with rfl | hx
      · exact hfe
      · exact hf x hx
    · rename_i hfe
      have hef : aheadOf base e f = true := aheadOf_total (hk f List.mem_cons_self) hfe
      refine List.pairwise_cons.2 ⟨fun x hx => ?_, h⟩
      rcases List.mem_cons.1 hx with rfl | hx
      · exact hef
      · exact aheadOf_trans hef (hf x hx)

/-- Settles O35: an insertion keeps table order and moves no entry (R10, R11). -/
theorem insertionKeepsTableOrder : Obligations.InsertionKeepsTableOrder := by
  intro base e es horder hk
  exact ⟨InTableOrder.insertEntry horder e hk, insertEntry_split base e es⟩

theorem insertEntry_perm (base : Time) (e : CueEntry) (es : List CueEntry) : (insertEntry base e es).Perm (e :: es) := by
  obtain ⟨front, behind, h, h'⟩ := insertEntry_split base e es
  rw [h', h]
  exact List.perm_middle

/-- What an entry's place is told by: its fire time and its key. -/
theorem aheadOf_congr {base : Time} {e f e' f' : CueEntry} (he : e'.fireTime = e.fireTime) (hek : e'.key = e.key)
    (hf : f'.fireTime = f.fireTime) (hfk : f'.key = f.key) : aheadOf base e' f' = aheadOf base e f := by
  unfold aheadOf; rw [he, hf, hek, hfk]

/-- A change of marks leaves every entry its place. -/
theorem InTableOrder.map {base : Time} {es : List CueEntry} (h : InTableOrder base es) (g : CueEntry → CueEntry)
    (ht : ∀ e, (g e).fireTime = e.fireTime) (hk : ∀ e, (g e).key = e.key) : InTableOrder base (es.map g) := by
  unfold InTableOrder
  rw [List.pairwise_map]
  exact h.imp fun {x y} hxy => by rw [aheadOf_congr (ht x) (hk x) (ht y) (hk y)]; exact hxy

/-! ### Whole entries, one for a key -/

/-- Entries that a table may hold: within its capacity, with different keys, each whole (R1, R2, R5, R6). -/
def EntriesSound (es : List CueEntry) : Prop :=
  es.length ≤ Config.cueCapacity ∧ (es.map (fun e => e.key)).Nodup ∧ ∀ e ∈ es, e.Whole

theorem EntriesSound.perm {es fs : List CueEntry} (h : EntriesSound es) (hp : es.Perm fs) : EntriesSound fs := by
  obtain ⟨hlen, hkeys, hwhole⟩ := h
  exact ⟨hp.length_eq ▸ hlen, (hp.map _).nodup_iff.1 hkeys, fun e he => hwhole e (hp.mem_iff.2 he)⟩

theorem EntriesSound.sublist {es fs : List CueEntry} (h : EntriesSound es) (hs : fs.Sublist es) : EntriesSound fs := by
  obtain ⟨hlen, hkeys, hwhole⟩ := h
  exact ⟨hs.length_le.trans hlen, hkeys.sublist (hs.map _), fun e he => hwhole e (hs.subset he)⟩

/-- A change of entries that leaves their keys and keeps them whole. -/
theorem EntriesSound.map {es : List CueEntry} (h : EntriesSound es) (g : CueEntry → CueEntry)
    (hk : ∀ e, (g e).key = e.key) (hw : ∀ e, e.Whole → (g e).Whole) : EntriesSound (es.map g) := by
  obtain ⟨hlen, hkeys, hwhole⟩ := h
  refine ⟨by rw [List.length_map]; exact hlen, ?_, fun e he => ?_⟩
  · rw [List.map_map]
    have hcomp : ((fun e : CueEntry => e.key) ∘ g) = fun e => e.key := funext hk
    rwa [hcomp]
  · obtain ⟨f, hf, rfl⟩ := List.mem_map.1 he
    exact hw f (hwhole f hf)

/-- The head replaced by an entry of its key. -/
theorem EntriesSound.cons_congr {e e' : CueEntry} {es : List CueEntry} (h : EntriesSound (e :: es)) (hk : e'.key = e.key)
    (hw : e'.Whole) : EntriesSound (e' :: es) := by
  obtain ⟨hlen, hkeys, hwhole⟩ := h
  refine ⟨hlen, by rwa [List.map_cons, hk], fun x hx => ?_⟩
  rcases List.mem_cons.1 hx with rfl | hx
  · exact hw
  · exact hwhole x (List.mem_cons_of_mem _ hx)

/-- The entries held, the provisional one first. -/
def CueTable.entries (t : CueTable) : List CueEntry := t.provisional.toList ++ t.armed

/-- The pulse list: one restore for a point at most, and for line-owned points (R61). -/
def Points.Sound (p : Points) : Prop :=
  (p.pulses.map (fun r => r.point)).Nodup ∧ ∀ r ∈ p.pulses, p.owner r.point = .line

/-- R14, R66: nothing is held and nothing is pending. -/
def NothingHeld (c : CueTable) (p : Points) : Prop := c.armed = [] ∧ c.provisional = none ∧ p.pulses = []

theorem CueTable.held_eq (t : CueTable) : t.held = t.entries.length := by
  unfold CueTable.held CueTable.entries
  cases t.provisional <;> simp

theorem State.tableSafe_iff (s : State) : s.TableSafe ↔
    EntriesSound s.cues.entries ∧ s.points.Sound ∧ (s.station.state.keepsCues = false → NothingHeld s.cues s.points) := by
  unfold State.TableSafe EntriesSound Points.Sound NothingHeld
  rw [CueTable.held_eq]
  exact ⟨fun ⟨h1, h2, h3, h4, h5, h6⟩ => ⟨⟨h1, h2, h3⟩, ⟨h4, h5⟩, h6⟩,
    fun ⟨⟨h1, h2, h3⟩, ⟨h4, h5⟩, h6⟩ => ⟨h1, h2, h3, h4, h5, h6⟩⟩

/-! ### Updates of the table -/

/-- What a new cue table must be: sound where the old one was, its armed entries in their order and with their fire times. -/
structure CuesStep (s : State) (c : CueTable) : Prop where
  table : s.TableSafe → (s.withCues c).TableSafe
  order : ∀ base, InTableOrder base s.cues.armed → InTableOrder base c.armed
  times : ∀ e ∈ c.armed, ∃ f ∈ s.cues.armed, e.fireTime = f.fireTime

/-- Entries may leave. -/
theorem CuesStep.of_sublist {s : State} {c : CueTable} (ha : c.armed.Sublist s.cues.armed)
    (hp : c.provisional = none ∨ c.provisional = s.cues.provisional) : CuesStep s c := by
  refine ⟨fun h => ?_, fun base h => h.sublist ha, fun e he => ⟨e, ha.subset he, rfl⟩⟩
  rw [State.tableSafe_iff] at h ⊢
  obtain ⟨hentries, hpoints, hnothing⟩ := h
  refine ⟨hentries.sublist ?_, hpoints, fun hs => ?_⟩
  · refine List.Sublist.append ?_ ha
    rcases hp with hp | hp
    · rw [State.withCues_cues, hp]; exact List.nil_sublist _
    · rw [State.withCues_cues, hp]
  · obtain ⟨h1, h2, h3⟩ := hnothing hs
    refine ⟨List.sublist_nil.1 (h1 ▸ ha), ?_, h3⟩
    rcases hp with hp | hp
    · exact hp
    · exact hp.trans h2

/-- The marks of armed entries may change. -/
theorem CuesStep.of_map {s : State} {c : CueTable} (g : CueEntry → CueEntry)
    (hg : ∀ e, ∃ m, g e = { e with withdrawPending := m }) (ha : c.armed = s.cues.armed.map g)
    (hp : c.provisional = s.cues.provisional) : CuesStep s c := by
  have ht : ∀ e, (g e).fireTime = e.fireTime := fun e => by obtain ⟨m, h⟩ := hg e; rw [h]
  have hk : ∀ e, (g e).key = e.key := fun e => by obtain ⟨m, h⟩ := hg e; rw [h]
  have hw : ∀ e, e.Whole → (g e).Whole := fun e h => by obtain ⟨m, hm⟩ := hg e; rw [hm]; exact h
  refine ⟨fun h => ?_, fun base h => ha ▸ InTableOrder.map h g ht hk, fun e he => ?_⟩
  · rw [State.tableSafe_iff] at h ⊢
    obtain ⟨⟨hlen, hkeys, hwhole⟩, hpoints, hnothing⟩ := h
    have hkeys' : c.entries.map (fun e => e.key) = s.cues.entries.map (fun e => e.key) := by
      simp only [CueTable.entries, ha, hp, List.map_append, List.map_map]
      congr 2
      exact funext hk
    refine ⟨⟨?_, ?_, fun e he => ?_⟩, hpoints, fun hs => ?_⟩
    · rw [← List.length_map (f := fun e => e.key)] at hlen ⊢
      rw [State.withCues_cues, hkeys']; exact hlen
    · rw [State.withCues_cues, hkeys']; exact hkeys
    · rcases List.mem_append.1 he with he | he
      · exact hwhole e (List.mem_append_left _ (hp ▸ he))
      · rw [State.withCues_cues, ha] at he
        obtain ⟨f, hf, rfl⟩ := List.mem_map.1 he
        exact hw f (hwhole f (List.mem_append_right _ hf))
    · obtain ⟨h1, h2, h3⟩ := hnothing hs
      exact ⟨by rw [State.withCues_cues, ha, h1]; rfl, hp.trans h2, h3⟩
  · rw [ha] at he
    obtain ⟨f, hf, rfl⟩ := List.mem_map.1 he
    exact ⟨f, hf, ht f⟩

/-- A change of the offer record alone. -/
theorem cuesStep_offer (s : State) (o : Option OfferRecord) : CuesStep s { s.cues with offer := o } :=
  .of_sublist (List.Sublist.refl _) (.inr rfl)

theorem removeKey_sublist (k : Key) (es : List CueEntry) : (removeKey k es).Sublist es := List.filter_sublist

theorem cuesStep_setMark (s : State) (k : Key) : CuesStep s { s.cues with armed := setMark k s.cues.armed } := by
  refine .of_map (fun e => if e.key = k then { e with withdrawPending := true } else e) (fun e => ?_) rfl rfl
  by_cases hk : e.key = k
  · exact ⟨true, if_pos hk⟩
  · exact ⟨e.withdrawPending, if_neg hk⟩

theorem cuesStep_clearMarks (s : State) (o : Option OfferRecord) :
    CuesStep s { s.cues with armed := clearMarks s.cues.armed, offer := o } :=
  .of_map (fun e => { e with withdrawPending := false }) (fun _ => ⟨false, rfl⟩) rfl rfl

/-! ### A new entry (R25 to R29) -/

/-- A well-formed CUE body says a whole entry (R5, R6, R26). -/
theorem whole_of_parseCue {bytes : List Byte} {b : CueBody} (h : parseCue bytes = some b) (sender : Byte) (scope : Scope)
    (own : Bool) : (provisionalOf sender scope own b).Whole := by
  obtain ⟨⟨h1, h4, hactions, hrep⟩, -⟩ := (CueBody.ok_iff b).1 ((parseCue_eq_some_iff bytes b).1 h).1
  refine ⟨h1, h4, ?_, ?_⟩
  · simpa [provisionalOf] using hactions
  · simpa [provisionalOf] using hrep

/-- R25: what an offer that passes every check shows. -/
theorem judgeCue_eq_new {t : CueTable} {minLead : Nat} {sender : Byte} {scope : Scope} {now : Time} {body : List Byte}
    {b : CueBody} (h : judgeCue t minLead sender scope now body = .new b) :
    parseCue body = some b ∧ t.find ⟨sender, b.serial⟩ = none ∧ t.held < Config.cueCapacity := by
  unfold judgeCue at h
  cases hb : parseCue body with
  | none => rw [hb] at h; cases h
  | some b' =>
    rw [hb] at h
    dsimp only at h
    cases hf : t.find ⟨sender, b'.serial⟩ with
    | some e =>
      rw [hf] at h
      dsimp only at h
      split at h <;> cases h
    | none =>
      rw [hf] at h
      dsimp only at h
      cases hl : leadVerdict minLead b'.fireTime now with
      | some r => rw [hl] at h; cases h
      | none =>
        rw [hl] at h
        dsimp only at h
        split at h
        · rename_i hroom
          injection h with h
          subst h
          exact ⟨rfl, hf, hroom⟩
        · cases h

/-- R27: a key that is not held is none of the armed entries'. -/
theorem CueTable.findArmed_none_of_find {t : CueTable} {k : Key} (h : t.find k = none) : ∀ e ∈ t.armed, e.key ≠ k := by
  refine (t.findArmed_eq_none k).1 ?_
  unfold CueTable.find at h
  cases ha : t.findArmed k with
  | none => rfl
  | some e => rw [ha] at h; cases h

theorem cuesStep_provisional {s : State} {minLead : Nat} {sender : Byte} {scope : Scope} {now : Time} {body : List Byte}
    {b : CueBody} (hj : judgeCue s.cues minLead sender scope now body = .new b) (own : Bool) (hs : s.station.state = .active) :
    CuesStep s { s.cues with provisional := some (provisionalOf sender scope own b) } := by
  obtain ⟨hparse, hfind, hroom⟩ := judgeCue_eq_new hj
  have hkeys := CueTable.findArmed_none_of_find hfind
  refine ⟨fun h => ?_, fun _ h => h, fun e he => ⟨e, he, rfl⟩⟩
  rw [State.tableSafe_iff] at h ⊢
  obtain ⟨hentries, hpoints, -⟩ := h
  have harmed : EntriesSound s.cues.armed := hentries.sublist (List.sublist_append_right _ _)
  obtain ⟨-, hnodup, hwhole⟩ := harmed
  refine ⟨⟨?_, List.nodup_cons.2 ⟨fun hm => ?_, hnodup⟩, fun e he => ?_⟩, hpoints, fun hk => ?_⟩
  · have hlt : s.cues.armed.length + (if s.cues.provisional.isSome then 1 else 0) < Config.cueCapacity := hroom
    change s.cues.armed.length + 1 ≤ _
    omega
  · obtain ⟨e, he, hek⟩ := List.mem_map.1 hm
    exact hkeys e he hek
  · rcases List.mem_cons.1 he with rfl | he
    · exact whole_of_parseCue hparse sender scope own
    · exact hwhole e he
  · rw [State.withCues_station, hs] at hk; cases hk

/-- R32: the provisional entry becomes an armed one. -/
theorem tableSafe_arm {s : State} {e : CueEntry} (base : Time) (he : s.cues.provisional = some e) (h : s.TableSafe) :
    (s.withCues { armed := insertEntry base e s.cues.armed, provisional := none, offer := none }).TableSafe := by
  rw [State.tableSafe_iff] at h ⊢
  obtain ⟨hentries, hpoints, hnothing⟩ := h
  refine ⟨hentries.perm ?_, hpoints, fun hs => ?_⟩
  · rw [CueTable.entries, he]
    exact (insertEntry_perm base e s.cues.armed).symm
  · obtain ⟨-, h2, -⟩ := hnothing hs
    rw [he] at h2; cases h2

/-- R2: no armed entry has the provisional entry's key. -/
theorem State.TableSafe.provisional_key {s : State} {e : CueEntry} (h : s.TableSafe) (he : s.cues.provisional = some e) :
    ∀ x ∈ s.cues.armed, x.key ≠ e.key := by
  rw [State.tableSafe_iff] at h
  obtain ⟨⟨-, hnodup, -⟩, -, -⟩ := h
  rw [CueTable.entries, he] at hnodup
  intro x hx hk
  exact (List.nodup_cons.1 hnodup).1 (List.mem_map.2 ⟨x, hx, hk⟩)

/-! ### The points -/

theorem Points.owner_congr {p q : Points} (h : q.owners = p.owners) (i : Fin 16) : q.owner i = p.owner i := by
  unfold Points.owner; rw [h]

theorem cancelRestore_sublist (i : Fin 16) (ps : List Restore) : (cancelRestore i ps).Sublist ps := List.filter_sublist

/-- Restores may leave. -/
theorem Points.Sound.of_sublist {p q : Points} (h : p.Sound) (ho : q.owners = p.owners) (hs : q.pulses.Sublist p.pulses) :
    q.Sound := by
  obtain ⟨hnodup, hline⟩ := h
  exact ⟨hnodup.sublist (hs.map _), fun r hr => (Points.owner_congr ho _).trans (hline r (hs.subset hr))⟩

/-- R62: a restore of a line-owned point is recorded in place of an earlier one. -/
theorem Points.Sound.record {p q : Points} (h : p.Sound) (r : Restore) (hr : p.owner r.point = .line) (ho : q.owners = p.owners)
    (hp : q.pulses = recordRestore r p.pulses) : q.Sound := by
  obtain ⟨hnodup, hline⟩ := h
  refine ⟨?_, fun x hx => ?_⟩
  · rw [hp, recordRestore, List.map_append, List.map_singleton]
    refine List.nodup_append'.2 ⟨hnodup.sublist ((cancelRestore_sublist _ _).map _), List.nodup_singleton _, ?_⟩
    intro i hi hi'
    obtain ⟨x, hx, rfl⟩ := List.mem_map.1 hi
    exact ((mem_cancelRestore _ _ _).1 hx).2 (List.mem_singleton.1 hi')
  · rw [Points.owner_congr ho]
    rw [hp, mem_recordRestore] at hx
    rcases hx with hx | rfl
    · exact hline x hx.1
    · exact hr

theorem Points.Sound.apply {p : Points} (h : p.Sound) (fire : Time) (a : Action) (ha : p.owner a.point = .line) :
    (p.apply fire a).Sound := by
  have ho := p.apply_owners fire a
  unfold Points.apply at ho ⊢
  split
  · exact h.of_sublist rfl (cancelRestore_sublist _ _)
  · exact h.of_sublist rfl (cancelRestore_sublist _ _)
  · exact h.of_sublist rfl (cancelRestore_sublist _ _)
  · exact h.record _ ha rfl rfl
  · exact h.record _ ha rfl rfl

theorem Points.Sound.applyActions {p : Points} (h : p.Sound) (fire : Time) (as : List Action) : (applyActions fire as p).Sound := by
  induction as generalizing p with
  | nil => exact h
  | cons a as ih =>
    unfold Machine.applyActions
    cases ha : p.owner a.point with
    | line => exact ih (h.apply fire a ha)
    | host => exact ih h

/-- What new points must be: with a sound pulse list where the old ones had one, and nothing newly pending. -/
structure PointsStep (s : State) (p : Points) : Prop where
  sound : s.points.Sound → p.Sound
  pending : s.points.pulses = [] → p.pulses = []

theorem State.TableSafe.withPoints {s : State} {p : Points} (hp : PointsStep s p) (h : s.TableSafe) : (s.withPoints p).TableSafe := by
  rw [State.tableSafe_iff] at h ⊢
  obtain ⟨hentries, hpoints, hnothing⟩ := h
  refine ⟨hentries, hp.sound hpoints, fun hs => ?_⟩
  obtain ⟨h1, h2, h3⟩ := hnothing hs
  exact ⟨h1, h2, hp.pending h3⟩

theorem pointsStep_applyRestores (s : State) (adv : Advance) (d : Nat) : PointsStep s (applyRestores adv d s.points) :=
  ⟨fun h => h.of_sublist (setRestored_owners _ _) List.filter_sublist,
    fun h => by rw [applyRestores, h]; rfl⟩

theorem pointsStep_hostSet (s : State) (mask levels : Word16) : PointsStep s (s.points.hostSet mask levels) :=
  ⟨fun h => h.of_sublist rfl (List.Sublist.refl _), id⟩

/-- R47: owners change at JOIN, where nothing is pending. -/
theorem pointsStep_joined {s : State} (r : SetupRecord) (h : s.points.pulses = []) : PointsStep s (s.points.joined r) :=
  ⟨fun _ => ⟨by rw [show (s.points.joined r).pulses = s.points.pulses from rfl, h]; exact List.nodup_nil,
    fun x hx => by rw [show (s.points.joined r).pulses = s.points.pulses from rfl, h] at hx; cases hx⟩, id⟩

/-! ### Firing (R53 to R59) -/

/-- R55, R56: an entry put back is whole, and keeps its key. -/
theorem putBack_whole {target : Time} {e e' : CueEntry} (h : (afterFiring target e).putBack = some e') (he : e.Whole) :
    e'.key = e.key ∧ e'.Whole := by
  obtain ⟨h1, h4, hactions, hrep⟩ := he
  unfold afterFiring at h
  cases hr : e.rep with
  | none => rw [hr] at h; cases h
  | some r =>
    rw [hr] at h hrep
    dsimp only at h
    obtain ⟨hperiod, -⟩ := hrep r rfl
    split at h
    · rename_i hk
      injection h with h
      subst h
      refine ⟨rfl, h1, h4, hactions, fun x hx => ?_⟩
      split at hx
      · cases hx
      · rename_i hne
        cases hx
        refine ⟨hperiod, fun hzero => ?_⟩
        have hz := congrArg BitVec.toNat hzero
        have hlt : r.count.toNat < 256 := r.count.isLt
        rw [BitVec.toNat_ofNat] at hz
        change _ % 256 = 0 at hz
        generalize distance target e.fireTime / r.period.toNat + 1 = k at hk hne hz
        generalize r.count.toNat = n at hk hne hz hlt
        omega
    · cases h

/-- R53 to R57: the points and the table after the head `e` has fired. -/
theorem tableSafe_fire {s : State} {e : CueEntry} {rest : List CueEntry} (adv : Advance) (hq : s.cues.armed = e :: rest)
    (h : s.TableSafe) : ((s.withPoints (applyActions e.fireTime e.actions s.points)).withCues
      { s.cues with armed := tableAfter adv e rest }).TableSafe := by
  rw [State.tableSafe_iff] at h ⊢
  obtain ⟨hentries, hpoints, hnothing⟩ := h
  refine ⟨?_, hpoints.applyActions _ _, fun hs => ?_⟩
  · have hhead : EntriesSound (e :: (s.cues.provisional.toList ++ rest)) :=
      hentries.perm (by rw [CueTable.entries, hq]; exact List.perm_middle)
    have ⟨_, _, hwhole⟩ := hhead
    change EntriesSound (s.cues.provisional.toList ++ tableAfter adv e rest)
    unfold tableAfter
    split
    · rename_i e' hput
      obtain ⟨hkey, hw⟩ := putBack_whole hput (hwhole e List.mem_cons_self)
      refine (hhead.cons_congr hkey hw).perm ?_
      exact (List.perm_middle.symm).trans ((insertEntry_perm adv.base e' rest).symm.append_left _)
    · exact hhead.sublist (List.sublist_cons_self _ _)
  · obtain ⟨h1, -, -⟩ := hnothing hs
    rw [hq] at h1; cases h1

end Sys2Proof.Machine
end

section
/-! SUPPORT. The clock record (R68 to R81, R87) and the station record: every operation of the line clock keeps the record within its
ranges, and which updates of the station record keep the invariants of the other blocks. -/

namespace Sys2Proof.Machine

/-! ### Due times (R71) -/

/-- The beacon periods: the four powers of two from 256 to 2048. -/
theorem beaconPeriod_mem {code : Nat} (h : code ≤ 3) : Config.beaconPeriod code ∈ [256, 512, 1024, 2048] := by
  match code, h with
  | 0, _ | 1, _ | 2, _ | 3, _ => decide

/-- A due time stands near a line time: a multiple of the period, and the first after it. -/
def IsNextDue (period : Nat) (d t : Time) : Prop := d.toNat % period = 0 ∧ 1 ≤ distance d t ∧ distance d t ≤ period

theorem isNextDue_firstMultipleAfter {period : Nat} (hp : period ∈ [256, 512, 1024, 2048]) (t : Time) :
    IsNextDue period (firstMultipleAfter period t) t := by
  have ht := t.isLt
  have key : (firstMultipleAfter period t).toNat = ((t.toNat / period + 1) * period) % 2 ^ 32 := BitVec.toNat_ofNat _ _
  have hd : distance (firstMultipleAfter period t) t = (2 ^ 32 - t.toNat + (firstMultipleAfter period t).toNat) % 2 ^ 32 :=
    BitVec.toNat_sub _ _
  rw [IsNextDue, hd, key]
  simp only [List.mem_cons, List.not_mem_nil, or_false] at hp
  rcases hp with rfl | rfl | rfl | rfl <;> omega

/-- R71: a tick that does not reach the next due time leaves it the next one. -/
theorem IsNextDue.of_tick {period size : Nat} {d t : Time} (h : IsNextDue period d t) (hp : period ∈ [256, 512, 1024, 2048])
    (hsize : size ≤ 2) (hafter : isAfter d (t + BitVec.ofNat 32 size) = true) :
    IsNextDue period d (t + BitVec.ofNat 32 size) := by
  obtain ⟨hmod, h1, hle⟩ := h
  simp only [isAfter, Bool.and_eq_true, decide_eq_true_eq] at hafter
  obtain ⟨ha1, ha2⟩ := hafter
  refine ⟨hmod, ha1, ?_⟩
  have hp' : period ≤ 2048 := by
    simp only [List.mem_cons, List.not_mem_nil, or_false] at hp
    rcases hp with rfl | rfl | rfl | rfl <;> decide
  have ht := t.isLt
  have hdlt := d.isLt
  have hd : distance d t = (2 ^ 32 - t.toNat + d.toNat) % 2 ^ 32 := BitVec.toNat_sub _ _
  have hd' : distance d (t + BitVec.ofNat 32 size) = (2 ^ 32 - (t + BitVec.ofNat 32 size).toNat + d.toNat) % 2 ^ 32 :=
    BitVec.toNat_sub _ _
  rw [BitVec.toNat_add, BitVec.toNat_ofNat] at hd'
  omega

/-! ### The clock record -/

/-- R68, R69, R71, R73, R77, R79, R80, R87: a clock record within its ranges, at a station of this ID. -/
structure Clock.Sound (c : Clock) (id : Byte) : Prop where
  remainder : c.slewRemainder.natAbs ≤ 16
  phase : c.slewPhase < 32
  idlePhase : c.slewRemainder = 0 → c.slewPhase = 0
  noSlew : c.state = .unsynced ∨ c.state = .reference → c.slewRemainder = 0
  misses : c.missCount < 3
  holdovers : c.holdoverCount < 64
  windows : c.windowCount ≤ 4
  noRef : c.state = .unsynced ∨ c.state = .holdover → c.refId = none
  someRef : c.state = .following → c.refId.isSome = true
  ownRef : c.state = .reference → c.refId = some id
  period : c.beaconPeriod ∈ [256, 512, 1024, 2048]
  due : ∀ d, c.nextDue = some d → IsNextDue c.beaconPeriod d c.lineTime

theorem State.clockSafe_iff (s : State) : s.ClockSafe ↔
    s.clock.Sound s.station.id ∧ s.station.setup.periodCode.toNat ≤ 3 ∧ (s.inReset = true → s.clock.state = .unsynced) := by
  constructor
  · rintro ⟨h1, h2, h3, h4, h5, h6, h7, h8, h9, h10, h11, h12, h13, h14⟩
    exact ⟨⟨h1, h2, h3, h4, h5, h6, h7, h8, h9, h10, h12, s.clock.nextDueIsNear_iff.1 h13⟩, h11, h14⟩
  · rintro ⟨⟨h1, h2, h3, h4, h5, h6, h7, h8, h9, h10, h12, h13⟩, h11, h14⟩
    exact ⟨h1, h2, h3, h4, h5, h6, h7, h8, h9, h10, h11, h12, s.clock.nextDueIsNear_iff.2 h13, h14⟩

/-- What a new clock record must be, where no step moves line time. -/
structure ClockStep (s : State) (c : Clock) : Prop where
  safe : s.LineSafe → s.ClockSafe → (s.withClock c).ClockSafe
  lineTime : c.lineTime = s.clock.lineTime

/-- A sound record keeps the clock safe, where it does not leave UNSYNCED while a full reset lasts. -/
theorem ClockStep.of_sound {s : State} {c : Clock} (ht : c.lineTime = s.clock.lineTime)
    (hc : s.clock.Sound s.station.id → c.Sound s.station.id) (hstate : c.state = .unsynced ∨ c.state = s.clock.state ∨
      s.clock.state ≠ .unsynced ∨ s.online) : ClockStep s c := by
  refine ⟨fun hl h => ?_, ht⟩
  rw [State.clockSafe_iff] at h ⊢
  obtain ⟨hs, hcode, hreset⟩ := h
  refine ⟨hc hs, hcode, fun hr => ?_⟩
  rcases hstate with h | h | h | h
  · exact h
  · exact h.trans (hreset hr)
  · exact absurd (hreset hr) h
  · exact absurd ((hl.notInReset h).symm.trans hr) Bool.false_ne_true

/-- R74, R75: marks and the beacon record say nothing of the ranges. -/
theorem clockStep_marks (s : State) (b : Option BeaconRecord) (m : Time) (d : Int) :
    ClockStep s { s.clock with beacon := b, markTime := m, slewSinceMark := d } :=
  .of_sound rfl (fun h => ⟨h.1, h.2, h.3, h.4, h.5, h.6, h.7, h.8, h.9, h.10, h.11, h.12⟩) (.inr (.inl rfl))

/-- R87, R79: a synced clock holds over. -/
theorem clockStep_holdover (s : State) (h : s.clock.state = .reference ∨ s.clock.state = .following) :
    ClockStep s { s.clock with state := .holdover, refId := none, missCount := 0, holdoverCount := 0 } := by
  refine .of_sound rfl (fun hs => { hs with
    noSlew := by simp, misses := by simp, holdovers := by simp, noRef := by simp, someRef := by simp, ownRef := by simp })
    (.inr (.inr (.inl ?_)))
  rcases h with h | h <;> rw [h] <;> decide

/-- R72, R79: a miss below the limit. -/
theorem clockStep_miss (s : State) (h : ¬Config.missLimit ≤ s.clock.missCount + 1) :
    ClockStep s { s.clock with missCount := s.clock.missCount + 1 } :=
  .of_sound rfl (fun hs => { hs with misses := Nat.lt_of_not_le h }) (.inr (.inl rfl))

/-- R72, R80: a holdover due time below the limit. -/
theorem clockStep_holdoverCount (s : State) (h : ¬Config.holdoverLimit ≤ s.clock.holdoverCount + 1) :
    ClockStep s { s.clock with holdoverCount := s.clock.holdoverCount + 1 } :=
  .of_sound rfl (fun hs => { hs with holdovers := Nat.lt_of_not_le h }) (.inr (.inl rfl))

/-- R72, R81: a window due time below the limit. -/
theorem clockStep_windowCount (s : State) (h : ¬Config.firstListenLimit ≤ s.clock.windowCount + 1) :
    ClockStep s { s.clock with windowCount := s.clock.windowCount + 1 } :=
  .of_sound rfl (fun hs => { hs with windows := (Nat.lt_of_not_le h).le }) (.inr (.inl rfl))

/-- R80. -/
theorem clockStep_endHoldover (s : State) (h : s.clock.state = .holdover) : ClockStep s { s.clock with
    state := .unsynced, slewRemainder := 0, slewPhase := 0, holdoverCount := 0, window := .running, windowCount := 0 } :=
  .of_sound rfl (fun hs => { hs with
    remainder := by simp, phase := by simp, idlePhase := by simp, noSlew := by simp, holdovers := by simp,
    windows := by simp, noRef := fun _ => hs.noRef (.inr h), someRef := by simp, ownRef := by simp }) (.inl rfl)

/-- R81. -/
theorem clockStep_expireWindow (s : State) :
    ClockStep s { s.clock with window := .expired, windowCount := Config.firstListenLimit } :=
  .of_sound rfl (fun hs => { hs with windows := Nat.le_refl _ }) (.inr (.inl rfl))

/-- R73: the station's own beacon, at a station that is not in reset. -/
theorem clockStep_ownBeacon (s : State) (h : s.online) : ClockStep s { s.clock with
    state := .reference, refId := some s.station.id, slewRemainder := 0, slewPhase := 0, missCount := 0, holdoverCount := 0,
    window := .off, windowCount := 0 } :=
  .of_sound rfl (fun hs => { hs with
    remainder := by simp, phase := by simp, idlePhase := by simp, noSlew := by simp, misses := by simp, holdovers := by simp,
    windows := by simp, noRef := by simp, someRef := by simp, ownRef := by simp }) (.inr (.inr (.inr h)))

/-- R71, R81: the clock record at JOIN, from a record within its ranges. -/
theorem clockStep_joined (s : State) : ClockStep s (s.clock.joined s.station.setup) := by
  refine ⟨fun _ h => ?_, rfl⟩
  rw [State.clockSafe_iff] at h ⊢
  obtain ⟨hs, hcode, hreset⟩ := h
  have hp := beaconPeriod_mem hcode
  refine ⟨{ hs with windows := Nat.zero_le _, period := hp, due := fun d hd => ?_ }, hcode, hreset⟩
  injection hd with hd
  subst hd
  exact isNextDue_firstMultipleAfter hp _

/-! ### The tick (R67, R71, R77) -/

theorem Clock.tickSize_le (c : Clock) : c.tickSize ≤ 2 := by
  unfold Clock.tickSize
  split
  · split <;> decide
  · decide

/-- R77: a slewed tick works off one tick of the remainder; another tick counts towards it. -/
theorem Clock.slewed_cases (c : Clock) :
    (c.slewDue = true ∧ 0 < c.slewRemainder ∧ c.slewed = { c with
      slewRemainder := c.slewRemainder - 1, slewPhase := 0, slewSinceMark := c.slewSinceMark + 1 }) ∨
    (c.slewDue = true ∧ c.slewRemainder < 0 ∧ c.slewed = { c with
      slewRemainder := c.slewRemainder + 1, slewPhase := 0, slewSinceMark := c.slewSinceMark - 1 }) ∨
    (c.slewDue = false ∧ c.slewRemainder = 0 ∧ c.slewed = { c with slewPhase := 0 }) ∨
    (c.slewDue = false ∧ c.slewRemainder ≠ 0 ∧ c.slewPhase + 1 < Config.slewSpan ∧
      c.slewed = { c with slewPhase := c.slewPhase + 1 }) := by
  cases hd : c.slewDue with
  | true =>
    have hne : c.slewRemainder ≠ 0 := by
      simp only [Clock.slewDue, Bool.and_eq_true, decide_eq_true_eq] at hd
      exact hd.1
    by_cases hpos : 0 < c.slewRemainder
    · exact .inl ⟨rfl, hpos, by rw [Clock.slewed, if_pos hd, if_pos hpos]⟩
    · exact .inr (.inl ⟨rfl, by omega, by rw [Clock.slewed, if_pos hd, if_neg hpos]⟩)
  | false =>
    have hd' : ¬c.slewDue = true := by simp [hd]
    by_cases hzero : c.slewRemainder = 0
    · exact .inr (.inr (.inl ⟨rfl, hzero, by rw [Clock.slewed, if_neg hd', if_pos hzero]⟩))
    · refine .inr (.inr (.inr ⟨rfl, hzero, ?_, by rw [Clock.slewed, if_neg hd', if_neg hzero]⟩))
      simpa [Clock.slewDue, hzero] using hd

/-- A tick keeps the clock record within its ranges. -/
theorem Clock.Sound.ticked {c : Clock} {id : Byte} (h : c.Sound id) : c.ticked.Sound id := by
  have hdue : ∀ d, c.ticked.nextDue = some d → IsNextDue c.beaconPeriod d c.ticked.lineTime := by
    intro d hd
    have hline : c.ticked.lineTime = c.lineTime + BitVec.ofNat 32 c.tickSize := rfl
    have hnext : c.ticked.nextDue = if c.tickSize ≠ 0 ∧ c.dueAt c.ticked.lineTime then
      some (firstMultipleAfter c.beaconPeriod c.ticked.lineTime) else c.nextDue := rfl
    rw [hnext] at hd
    split at hd
    · injection hd with hd
      subst hd
      exact isNextDue_firstMultipleAfter h.period _
    · rename_i hnot
      have hold := h.due d hd
      rw [hline] at hnot ⊢
      by_cases hzero : c.tickSize = 0
      · rw [hzero, BitVec.add_zero]; exact hold
      · refine hold.of_tick h.period c.tickSize_le ?_
        simpa [Clock.dueAt, hd, hzero] using hnot
  have hrem : (c.ticked.slewRemainder = c.slewed.slewRemainder ∧ c.ticked.slewPhase = c.slewed.slewPhase) := ⟨rfl, rfl⟩
  have hslew : c.slewed.slewRemainder.natAbs ≤ 16 ∧ c.slewed.slewPhase < 32 ∧
      (c.slewed.slewRemainder = 0 → c.slewed.slewPhase = 0) ∧ (c.slewRemainder = 0 → c.slewed.slewRemainder = 0) := by
    have hr := h.remainder
    rcases c.slewed_cases with ⟨-, hs, e⟩ | ⟨-, hs, e⟩ | ⟨-, hs, e⟩ | ⟨-, hs, hp, e⟩ <;> rw [e]
    · exact ⟨by dsimp only; omega, by simp, fun _ => rfl, fun h0 => by omega⟩
    · exact ⟨by dsimp only; omega, by simp, fun _ => rfl, fun h0 => by omega⟩
    · exact ⟨hr, by simp, fun _ => rfl, fun h0 => h0⟩
    · exact ⟨hr, hp, fun h0 => absurd h0 hs, fun h0 => absurd h0 hs⟩
  have hsame : c.slewed.state = c.state ∧ c.slewed.refId = c.refId ∧ c.slewed.missCount = c.missCount ∧
      c.slewed.holdoverCount = c.holdoverCount ∧ c.slewed.windowCount = c.windowCount ∧
      c.slewed.beaconPeriod = c.beaconPeriod := by
    rcases c.slewed_cases with ⟨-, -, e⟩ | ⟨-, -, e⟩ | ⟨-, -, e⟩ | ⟨-, -, -, e⟩ <;> rw [e] <;>
      exact ⟨rfl, rfl, rfl, rfl, rfl, rfl⟩
  obtain ⟨hstate, href, hmiss, hhold, hwin, hper⟩ := hsame
  obtain ⟨s1, s2, s3, s4⟩ := hslew
  exact {
    remainder := s1, phase := s2, idlePhase := s3
    noSlew := fun hs => s4 (h.noSlew (hstate ▸ hs))
    misses := by change c.slewed.missCount < 3; rw [hmiss]; exact h.misses
    holdovers := by change c.slewed.holdoverCount < 64; rw [hhold]; exact h.holdovers
    windows := by change c.slewed.windowCount ≤ 4; rw [hwin]; exact h.windows
    noRef := fun hs => href.trans (h.noRef (hstate ▸ hs))
    someRef := fun hs => by change c.slewed.refId.isSome = true; rw [href]; exact h.someRef (hstate ▸ hs)
    ownRef := fun hs => href.trans (h.ownRef (hstate ▸ hs))
    period := by change c.slewed.beaconPeriod ∈ _; rw [hper]; exact h.period
    due := fun d hd => by change IsNextDue c.slewed.beaconPeriod d _; rw [hper]; exact hdue d hd }

@[simp] theorem Clock.ticked_state (c : Clock) : c.ticked.state = c.state := by
  change c.slewed.state = c.state
  rcases c.slewed_cases with ⟨-, -, e⟩ | ⟨-, -, e⟩ | ⟨-, -, e⟩ | ⟨-, -, -, e⟩ <;> rw [e]

/-! ### Adoption (R76 to R78) -/

theorem stepsClock_iff (from_ : ClockState) (offset : Int) :
    stepsClock from_ offset = true ↔ from_ = .unsynced ∨ 16 < offset.natAbs := by
  rw [stepsClock, Bool.or_eq_true, beq_iff_eq, decide_eq_true_iff]
  rfl

/-- An adoption leaves a record within its ranges. -/
theorem Clock.Sound.adopted {c : Clock} {id : Byte} (h : c.Sound id) (b : BeaconRecord) : (c.adopted b).Sound id := by
  have hcorrected : ∀ c' : Clock, c'.slewRemainder.natAbs ≤ 16 → c'.slewPhase = 0 → c'.beaconPeriod = c.beaconPeriod →
      (∀ d, c'.nextDue = some d → IsNextDue c'.beaconPeriod d c'.lineTime) →
      ({ c' with state := .following, refId := some b.sender, missCount := 0, holdoverCount := 0, window := .off,
                 windowCount := 0, beacon := none } : Clock).Sound id := fun c' hr hp hper hdue => {
    remainder := hr, phase := by simp [hp], idlePhase := fun _ => hp, noSlew := by simp, misses := by simp,
    holdovers := by simp, windows := by simp, noRef := by simp, someRef := by simp, ownRef := by simp,
    period := hper ▸ h.period, due := hdue }
  unfold Clock.adopted
  dsimp only
  split
  · refine hcorrected _ (Nat.zero_le _) rfl rfl fun d hd => ?_
    obtain ⟨d', -, hd'⟩ := Option.map_eq_some_iff.1 hd
    subst hd'
    exact isNextDue_firstMultipleAfter h.period _
  · rename_i hstep
    have hsmall : ¬16 < (offsetOf c b).natAbs := fun hlt => hstep ((stepsClock_iff _ _).2 (.inr hlt))
    exact hcorrected _ (Nat.le_of_not_lt hsmall) rfl rfl h.due

/-! ### The station record -/

/-- What a change of the station record and the pins must keep. -/
structure StationStep (s t : State) : Prop where
  line : s.LineSafe → t.LineSafe
  table : s.LineSafe → s.TableSafe → t.TableSafe
  clock : s.LineSafe → s.ClockSafe → t.ClockSafe

/-- R159, R166: what waits for the end of a frame. -/
theorem stationStep_pending (s : State) (leave dup : Bool) :
    StationStep s (s.withStation { s.station with leavePending := leave, dupPending := dup }) :=
  ⟨fun h => h, fun _ h => h, fun _ h => h⟩

/-- R156: a record within its ranges. -/
theorem stationStep_setup (s : State) (r : SetupRecord) (h : r.periodCode.toNat ≤ 3) :
    StationStep s (s.withStation { s.station with setup := r }) := by
  refine ⟨fun h => h, fun _ h => h, fun _ hc => ?_⟩
  rw [State.clockSafe_iff] at hc ⊢
  obtain ⟨hs, -, hreset⟩ := hc
  exact ⟨hs, h, hreset⟩

/-- A move to another station state, where nothing uses the line unless it is ACTIVE, and nothing is held unless it may be. -/
theorem stationStep_state {s : State} (new : StationState) (hawake : new ≠ .setup ∧ new ≠ .halted) (ho : s.online ∨ s.inReset = false)
    (huse : s.LineSafe → s.usesLine = true → new = .active)
    (hheld : new.keepsCues = false → s.station.state.keepsCues = false) :
    StationStep s (s.withStation { s.station with state := new }) := by
  refine ⟨fun hl => ?_, fun _ h => ?_, fun _ h => h⟩
  · have hreset : s.inReset = false := ho.elim hl.notInReset id
    have huse' := huse hl
    obtain ⟨-, hrole, -, -⟩ := hl
    exact ⟨huse', hrole, fun hs => absurd hs (not_or.2 hawake), fun hr => by
      rw [show (s.withStation { s.station with state := new }).inReset = s.inReset from rfl, hreset] at hr; cases hr⟩
  · rw [State.tableSafe_iff] at h ⊢
    obtain ⟨hentries, hpoints, hnothing⟩ := h
    exact ⟨hentries, hpoints, fun hk => hnothing (hheld hk)⟩

/-- R158: LISTEN becomes ACTIVE. -/
theorem stationStep_active (s : State) (h : s.station.state = .listen) :
    StationStep s (s.withStation { s.station with state := .active }) :=
  stationStep_state .active (by decide) (.inl (.inr (.inr (.inr (.inr (by rw [h]; decide)))))) (fun _ _ => rfl)
    (fun hk => by cases hk)

/-- R160: SILENT, with no wire driven, no frame of its own and nothing offered. -/
theorem stationStep_silent (s : State) (ho : s.online) (hu : s.usesLine = false) :
    StationStep s (s.withStation { s.station with state := .silent }) :=
  stationStep_state .silent (by decide) (.inl ho) (fun _ h => by rw [hu] at h; cases h) (fun hk => by cases hk)

/-- R157: SETUP becomes LISTEN. -/
theorem stationStep_listen (s : State) (h : s.station.state = .setup) (hr : s.inReset = false) :
    StationStep s (s.withStation { s.station with state := .listen }) := by
  refine stationStep_state .listen (by decide) (.inr hr) (fun hl hu => ?_) (fun _ => by rw [h]; rfl)
  obtain ⟨huse, -⟩ := hl
  have := huse hu
  rw [h] at this; cases this

/-- R151 to R153: the release of a full reset. -/
theorem stationStep_release (s : State) (straps : Straps) (h : s.inReset = true) :
    StationStep s ((s.withPins { s.pins with nrst := .high }).withStation (sampledStation straps)) := by
  have hoff : (sampledStation straps).state = .setup ∨ (sampledStation straps).state = .halted := by
    unfold sampledStation
    dsimp only
    split
    · exact .inr rfl
    · exact .inl rfl
  refine ⟨fun hl => ?_, fun hl ht => ?_, fun hl hc => ?_⟩
  · obtain ⟨huse, hrole, hsetup, hreset⟩ := hl
    refine ⟨fun hu => ?_, hrole, fun _ => hsetup (.inr (hreset h)), fun hr => by cases hr⟩
    have := huse hu
    rw [hreset h] at this; cases this
  · obtain ⟨-, -, -, hreset⟩ := hl
    rw [State.tableSafe_iff] at ht ⊢
    obtain ⟨hentries, hpoints, hnothing⟩ := ht
    exact ⟨hentries, hpoints, fun _ => hnothing (by rw [hreset h]; rfl)⟩
  · rw [State.clockSafe_iff] at hc ⊢
    obtain ⟨hs, -, hreset⟩ := hc
    have hunsynced := hreset h
    refine ⟨{ hs with ownRef := fun hr => ?_ }, by change 2 ≤ 3; decide, fun hr => by cases hr⟩
    exact absurd ((hunsynced.symm.trans hr : ClockState.unsynced = .reference)) (by decide)

end Sys2Proof.Machine
end

section
/-! SUPPORT. Every step is made of updates of one block: a predicate that stands through each such update stands through every step. The
updates are guarded by what each block's own invariant needs, so that one walk through the rows serves every invariant. -/

namespace Sys2Proof.Machine

/-- A state that meets every invariant. -/
structure State.MeetsAll (t : State) : Prop where
  port : t.port.Safe
  send : t.send.Safe
  line : t.LineSafe
  table : t.TableSafe
  order : t.OrderSafe
  span : t.FireTimesInSpan
  clock : t.ClockSafe
  counts : t.CountsSafe

/-- `P` stands through every update of one block that its own invariant allows. -/
structure StandsThroughUpdates (P : State → Prop) : Prop where
  fresh : ∀ s t : State, t.MeetsAll → t.pending = s.pending → P s → P t
  order : ∀ (s : State) (n : Nat), P s → P (s.withOrder n)
  pins : ∀ (s : State) (x : Pins), x.nrst = s.pins.nrst → P s → P (s.withPins x)
  port : ∀ (s : State) (p : Port), (s.port.Safe → p.Safe) → P s → P (s.withPort p)
  line : ∀ (s : State) (l : Line), LineStep s l → P s → P (s.withLine l)
  decoder : ∀ (s : State) (d : Decoder), P s → P (s.withDecoder d)
  send : ∀ (s : State) (u : SendUnit), SendStep s u → P s → P (s.withSend u)
  inputs : ∀ (s : State) (i : Four TriggerInput), (s.CountsSafe → (s.withInputs i).CountsSafe) → P s → P (s.withInputs i)
  peers : ∀ (s : State) (r : List PeerRecord), (s.CountsSafe → (s.withPeers r).CountsSafe) → P s → P (s.withPeers r)
  work : ∀ (s : State) (w : Work), WorkStep s w → P s → P (s.withWork w)
  clock : ∀ (s : State) (c : Clock), ClockStep s c → P s → P (s.withClock c)
  cues : ∀ (s : State) (c : CueTable), CuesStep s c → P s → P (s.withCues c)
  points : ∀ (s : State) (p : Points), (s.TableSafe → (s.withPoints p).TableSafe) → P s → P (s.withPoints p)
  station : ∀ (s : State) (x : Station), StationStep s (s.withStation x) → P s → P (s.withStation x)
  release : ∀ (s : State) (x : Pins) (y : Station), StationStep s ((s.withPins x).withStation y) → P s →
    P ((s.withPins x).withStation y)

/-- The updates that move line time or give an entry a place: from `P`, before them, to `Q`, after them. -/
structure StandsThroughMoves (P Q : State → Prop) : Prop where
  weaken : ∀ s : State, P s → Q s
  advance : ∀ s : State, P s → P (finishAdvance s)
  fire : ∀ (s : State) (adv : Advance) (e : CueEntry) (rest : List CueEntry), s.work.advance = some adv →
    s.cues.armed = e :: rest → adv.reaches e.fireTime = true → P s →
    Q ((s.withPoints (applyActions e.fireTime e.actions s.points)).withCues { s.cues with armed := tableAfter adv e rest })
  tick : ∀ s : State, s.work = Work.none → P s → Q (crystalTick s)
  arm : ∀ (s : State) (e : CueEntry), s.work.advance = none → s.cues.provisional = some e → P s →
    Q (s.withCues { armed := insertEntry s.clock.lineTime e s.cues.armed, provisional := none, offer := none })
  adopt : ∀ (s : State) (b : BeaconRecord), s.work.advance = none → s.online → P s →
    Q ((s.withClock (s.clock.adopted b)).withWork { s.work with advance := steppedAdvance s.clock b })

namespace StandsThroughUpdates
variable {P : State → Prop} (K : StandsThroughUpdates P) {s : State}
include K

theorem thenWork {w : Work} (h : P s) (hw : WorkStep s w) : P (s.withWork w) := K.work s w hw h

theorem thenStation {x : Station} (h : P s) (hx : StationStep s (s.withStation x)) : P (s.withStation x) := K.station s x hx h

theorem notify (n : Notice) (h : P s) : P (notify n s) := K.port s _ (Port.safe_push _ n) h

theorem notifyAll (ns : List Notice) (h : P s) : P (notifyAll ns s) := notifyAll_keeps (fun n _ h => K.notify n h) ns s h

theorem eitherOrder {f g : State → State} (hf : ∀ s, P s → P (f s)) (hg : ∀ s, P s → P (g s)) (h : P s) :
    P (eitherOrder f g s) := eitherOrder_keeps hf hg K.order s h

/-! ### A due time -/

theorem enterActive (cause : StationCause) (h : P s) : P (enterActive cause s) := by
  unfold Machine.enterActive
  split
  · rename_i hl
    exact K.notify _ (K.station s _ (stationStep_active s hl) h)
  · exact h

theorem dueCounts (h : P s) : P (dueCounts s) := by
  unfold Machine.dueCounts
  split
  · rename_i hc
    split
    · exact K.notify _ (K.clock s _ (clockStep_holdover s (.inr hc)) h)
    · rename_i hlimit
      exact K.clock s _ (clockStep_miss s hlimit) h
  · rename_i hc
    split
    · exact K.notify _ (K.clock s _ (clockStep_endHoldover s hc) h)
    · rename_i hlimit
      exact K.clock s _ (clockStep_holdoverCount s hlimit) h
  · split
    · split
      · unfold expireWindow
        dsimp only
        split
        · exact K.enterActive _ (K.clock s _ (clockStep_expireWindow s) h)
        · exact K.clock s _ (clockStep_expireWindow s) h
      · rename_i hlimit
        exact K.clock s _ (clockStep_windowCount s hlimit) h
    · exact h
  · exact h

theorem placeBeacon (h : P s) : P (placeBeacon s) := by
  unfold Machine.placeBeacon
  split
  · exact K.send s _ ⟨fun hs => hs, fun ho => .inl ho⟩ h
  · exact h

theorem agePeers (h : P s) : P (agePeers s) := by
  refine K.notifyAll _ (K.peers s _ (fun hc => ?_) h)
  rw [State.countsSafe_iff] at hc ⊢
  obtain ⟨⟨hlen, hpeers⟩, hinputs⟩ := hc
  refine ⟨⟨(List.length_map _).trans hlen, fun r hr => ?_⟩, hinputs⟩
  obtain ⟨r', hr', rfl⟩ := List.mem_map.1 hr
  exact (hpeers r' hr').aged

theorem finishDue (h : P s) : P (finishDue s) := by
  unfold Machine.finishDue
  split
  · exact K.agePeers (K.placeBeacon (K.dueCounts (K.work s _ ⟨rfl, .inl ⟨id, id⟩⟩ h)))
  · exact h

/-! ### Send entries -/

/-- R133, R138: the head ends, as its counts have become. -/
theorem endHead {e e' : SendEntry} {rest : List SendEntry} (hq : s.send.queue = e :: rest) (hk : e'.kind = e.kind)
    (hs : e'.serial = e.serial) (o : SendOutcome) (h : P s) : P (endEntry o e' (s.withSend { s.send with queue := rest })) :=
  K.notify (s := s.withSend { s.send with queue := rest, issued := issuedAfter e' o s.send.issued })
    (sendDoneNotice e' o (s.withSend { s.send with queue := rest })) (K.send s _ ⟨fun hu => hu.ended hq hk hs o, fun ho => .inl ho⟩ h)

theorem requeueHead {e e' : SendEntry} {rest : List SendEntry} (hq : s.send.queue = e :: rest) (hk : e'.kind = e.kind)
    (hs : e'.serial = e.serial) (h : P s) : P (s.withSend { s.send with queue := e' :: rest }) :=
  K.send s _ ⟨fun hu => hu.headReplaced hq hk hs, fun ho => .inl ho⟩ h

end StandsThroughUpdates

/-- R132: whatever becomes of the head, its kind and its serial stay. -/
def HeadFate.entry : HeadFate → SendEntry
  | .requeued e => e
  | .ended _ e => e

theorem headFate_entry (o : AttemptOutcome) (e : SendEntry) :
    (headFate o e).entry.kind = e.kind ∧ (headFate o e).entry.serial = e.serial := by
  have hback : ∀ e' : SendEntry, (backToQueue e').entry = e' := by
    intro e'; unfold backToQueue; split <;> rfl
  cases o with
  | lost => unfold headFate; rw [hback]; exact ⟨rfl, rfl⟩
  | broken =>
    unfold headFate
    dsimp only
    split
    · exact ⟨rfl, rfl⟩
    · rw [hback]; exact ⟨rfl, rfl⟩
  | unheard =>
    unfold headFate
    dsimp only
    split
    · exact ⟨rfl, rfl⟩
    · rw [hback]; exact ⟨rfl, rfl⟩
  | refused | accepted => exact ⟨rfl, rfl⟩

/-- R133, R138: entries end one after another: the issued list grows, and one SEND_DONE is queued for each. -/
theorem endEntries_eq_notifyAll (o : SendOutcome) (es : List SendEntry) (s : State) :
    endEntries o es s = notifyAll (es.map fun e => s.doneWith o e)
      (s.withSend { s.send with issued := es.foldl (fun l e => issuedAfter e o l) s.send.issued }) := by
  induction es generalizing s with
  | nil => rfl
  | cons e es ih =>
    rw [endEntries, ih]
    rfl

/-- R137: every entry of the queue ends SILENCED. -/
theorem silenceQueue_eq_notifyAll (s : State) : silenceQueue s = notifyAll (s.send.queue.map fun e => s.doneWith .silenced e)
    (s.withSend { s.send with
      queue := [], issued := s.send.issued ++ issuedByEnding s.send.queue, offered := .none }) := by
  rw [silenceQueue, endEntries_eq_notifyAll, issuedAfter_foldl .silenced (by decide)]
  rfl

theorem active_of_mayOffer {s : State} (h : s.mayOffer = true) : s.station.state = .active ∧ s.line.state = .idle := by
  simpa [State.mayOffer] using h

theorem active_of_headOfferDue {s : State} (h : s.headOfferDue = true) : s.station.state = .active := by
  simp only [State.headOfferDue, Bool.and_eq_true] at h
  exact (active_of_mayOffer h.1.1.1).1

theorem active_of_beaconOfferDue {s : State} (h : s.beaconOfferDue = true) : s.station.state = .active := by
  simp only [State.beaconOfferDue, Bool.and_eq_true] at h
  exact (active_of_mayOffer h.1.1).1

/-- R137: the queue empties the offer too, so what stood offered before makes no difference to it. -/
theorem silenceQueue_clockLeavesActive (s : State) : silenceQueue (clockLeavesActive s) =
    silenceQueue (clockLeavesActive (s.withSend { s.send with offered := .none })) := by
  unfold clockLeavesActive
  dsimp only
  by_cases hc : s.clock.state = .reference
  · simp only [State.withSend_clock, hc, if_true]; rfl
  · simp only [State.withSend_clock, hc, if_false]; rfl

namespace StandsThroughUpdates
variable {P : State → Prop} (K : StandsThroughUpdates P) {s : State}
include K

theorem attemptOutcome (o : AttemptOutcome) (h : P s) : P (attemptOutcome o s) := by
  unfold Machine.attemptOutcome
  split
  · exact K.send s _ ⟨fun hs => hs, fun ho => .inl ho⟩ h
  · unfold headOutcome
    split
    · exact h
    · rename_i e rest hq
      obtain ⟨hk, hs⟩ := headFate_entry o e
      split
      · rename_i e' hf
        rw [hf] at hk hs
        exact K.requeueHead hq hk hs h
      · rename_i oc e' hf
        rw [hf] at hk hs
        exact K.endHead hq hk hs oc h

theorem offerQueue (n : Nat) (ha : s.station.state = .active) (h : P s) : P (offerQueue n s) := by
  induction n generalizing s with
  | zero => exact h
  | succ n ih =>
    unfold Machine.offerQueue
    split
    · exact h
    · rename_i e rest hq
      split
      · exact h
      · split
        · rename_i o _
          exact ih (s := endEntry o e (s.withSend { s.send with queue := rest })) ha (K.endHead hq rfl rfl o h)
        · exact K.send s _ ⟨fun hs => hs, fun _ => .inr ha⟩ h

theorem offerHead (h : P s) : P (offerHead s) := by
  unfold Machine.offerHead
  split
  · rename_i hdue
    exact K.offerQueue _ (active_of_headOfferDue hdue) h
  · exact h

theorem offerBeacon (h : P s) : P (offerBeacon s) := by
  unfold Machine.offerBeacon
  split
  · rename_i hdue
    exact K.send s _ ⟨fun hs => hs, fun _ => .inr (active_of_beaconOfferDue hdue)⟩ h
  · exact h

/-! ### The evaluation point -/

theorem answer (a : Answer) (h : P s) : P (s.answer a) := K.decoder s _ h

theorem hearPeer (id : Byte) (beacon : Bool) (h : P s) : P (hearPeer id beacon s) := by
  have hpeers : P (s.withPeers (s.peers.set (id.toNat - 1) ((s.peer id).heard s.clock.lineTime beacon))) := by
    refine K.peers s _ (fun hc => ?_) h
    rw [State.countsSafe_iff] at hc ⊢
    obtain ⟨⟨hlen, hpeers⟩, hinputs⟩ := hc
    refine ⟨⟨(List.length_set).trans hlen, fun r hr => ?_⟩, hinputs⟩
    rcases List.mem_or_eq_of_mem_set hr with hr | rfl
    · exact hpeers r hr
    · exact PeerRecord.Bounded.heard _ _
  unfold Machine.hearPeer
  dsimp only
  split
  · exact hpeers
  · exact K.notify _ hpeers

theorem reportFrame (h : P s) : P (reportFrame s) := by
  unfold Machine.reportFrame
  split
  · exact h
  · split
    · unfold raiseDuplicate
      split
      · exact K.station s _ (stationStep_pending s s.station.leavePending true) h
      · exact K.station s _ (stationStep_pending s s.station.leavePending true) h
      · exact h
      · exact h
      · exact h
    · exact K.hearPeer _ _ h

theorem record (kind : OfferKind) (key : Key) (a : Answer) (eff : OfferEffect) (h : P s) :
    P ((s.record kind key a eff).answer a) :=
  K.answer a (K.cues s _ (cuesStep_offer s _) h)

theorem answerBeacon (h : P s) : P (answerBeacon s) := by
  unfold Machine.answerBeacon
  split
  · exact K.notify _ (K.answer _ h)
  · split
    · exact K.notify _ (K.answer _ h)
    · split
      · exact K.answer _ h
      · exact K.answer _ (K.clock s _ (clockStep_marks s _ s.clock.markTime s.clock.slewSinceMark) h)

theorem answerWithdraw (h : P s) : P (answerWithdraw s) := by
  have heval : P (evaluateWithdraw s) := by
    unfold evaluateWithdraw
    split
    · exact K.notify _ (K.record _ _ _ _ h)
    · split
      · exact K.record _ _ _ _ h
      · split
        · exact K.notify _ (K.record _ _ _ _ h)
        · exact K.record _ _ _ _ (K.cues s _ (cuesStep_setMark s _) h)
  have hmiss : P (missWithdraw s) := by
    unfold missWithdraw
    split
    · exact K.answer _ h
    · split
      · exact K.notify _ (K.answer _ h)
      · exact K.answer _ h
  unfold Machine.answerWithdraw
  cases s.station.state with
  | active => exact heval
  | silent => exact hmiss
  | listen | setup | halted => exact K.answer _ h

theorem evaluateCue (ha : s.station.state = .active) (h : P s) : P (evaluateCue s) := by
  unfold Machine.evaluateCue
  split
  · exact K.notify _ (K.record _ _ _ _ h)
  · exact K.record _ _ _ _ h
  · rename_i b hj
    exact K.record _ _ _ _ (K.cues s _ (cuesStep_provisional hj s.decoder.ownFrame ha) h)

theorem answerCue (h : P s) : P (answerCue s) := by
  have hmiss : ∀ cause, P (missCue cause s) := fun _ => K.notify _ (K.answer _ h)
  unfold Machine.answerCue
  cases ha : s.station.state with
  | active =>
    dsimp only
    split
    · exact K.evaluateCue ha h
    · exact hmiss _
  | silent | listen | setup | halted => exact hmiss _

theorem answerMessage (h : P s) : P (answerMessage s) := by
  unfold Machine.answerMessage
  split
  · exact K.answer _ h
  · split
    · exact K.notify _ (K.answer _ h)
    · split
      · rename_i hfree
        exact K.answer _ (K.port s _ (fun hp => Port.safe_reserved _ hfree hp) h)
      · exact K.answer _ (K.port s _ (fun hp => Port.safe_drop (p := s.port.mark _) hp) h)

theorem answerFrame (h : P s) : P (answerFrame s) := by
  unfold Machine.answerFrame
  split
  · split
    · exact K.answerBeacon h
    · split
      · exact K.answer _ h
      · split
        · exact K.answerWithdraw h
        · split
          · exact K.answerCue h
          · exact K.answerMessage h
  · exact K.answer _ h

theorem decideAnswer (h : P s) : P (decideAnswer s) := by
  unfold Machine.decideAnswer
  split
  · exact K.answer _ h
  · exact K.answer _ h
  · split
    · exact K.eitherOrder (fun _ h => K.reportFrame h) (fun _ h => K.answerFrame h) h
    · exact K.notify _ (K.answer _ h)
    · exact K.notify _ (K.answer _ h)
    · exact K.answer _ h

theorem evaluationPoint (he : s.work.evaluate = true) (h : P s) : P (evaluationPoint s) := by
  have hline : P (s.withLine s.line.atEvaluation) := K.line s _ (lineStep_atEvaluation s he) h
  have hwork : P ((s.withLine s.line.atEvaluation).withWork { s.work with evaluate := false }) :=
    K.work _ _ ⟨rfl, .inl ⟨id, fun h => by cases h⟩⟩ hline
  exact K.decideAnswer (K.decoder _ _ hwork)

theorem loseArbitration (ha : s.work.arbLost = true) (h : P s) : P (loseArbitration s) := by
  have hline := K.line s _ (lineStep_lost s ha) h
  exact K.attemptOutcome .lost (K.decoder _ _ (K.thenWork (w := { s.work with arbLost := false }) hline ⟨rfl, .inl ⟨fun h => (by cases h), id⟩⟩))

theorem arbitrationLost (h : P s) : P (if s.work.arbLost then Machine.loseArbitration s else s) := by
  split
  · rename_i ha
    exact K.loseArbitration ha h
  · exact h

theorem finishSample (h : P s) : P (finishSample s) := by
  have harb := K.arbitrationLost h
  unfold Machine.finishSample
  dsimp only
  generalize (if s.work.arbLost then Machine.loseArbitration s else s) = t at harb ⊢
  split
  · rename_i he
    exact K.evaluationPoint he harb
  · exact harb

/-! ### The instant finished -/

section
variable (A : ∀ s : State, P s → P (finishAdvance s))
include A

theorem finishWork (h : P s) : P (finishWork s) := by
  unfold Machine.finishWork
  split
  · exact h
  · exact K.eitherOrder A (fun _ h => K.finishDue h) (K.finishSample h)

theorem settle (h : P s) : P (settle s) := K.offerHead (K.offerBeacon (K.finishWork A h))

end

/-! ### The entry to SILENT, and outcomes -/

theorem clockLeavesActive (h : P s) : P (clockLeavesActive s) := by
  have hslot : P (s.withSend { s.send with slot := if s.send.slot = .queued then .empty else s.send.slot }) :=
    K.send s _ ⟨fun hs => hs, fun ho => .inl ho⟩ h
  unfold Machine.clockLeavesActive
  dsimp only
  generalize s.withSend { s.send with slot := if s.send.slot = .queued then .empty else s.send.slot } = t at hslot ⊢
  split
  · rename_i hc
    exact K.notify _ (K.clock t _ (clockStep_holdover t (.inl hc)) hslot)
  · exact hslot

theorem silenceQueue (h : P s) : P (silenceQueue s) := by
  rw [silenceQueue_eq_notifyAll]
  exact K.notifyAll _ (K.send s _ ⟨fun hs => hs.silenced s.send.slot .none, fun ho => absurd rfl ho⟩ h)

/-- R160: the entry to SILENT, at a station with no frame of its own on the line. -/
theorem enterSilent (cause : StationCause) (kind : Option (BitVec 3)) (ho : s.online) (hr : s.line.role ≠ .sender)
    (h : P s) : P (enterSilent cause kind s) := by
  have hoffer : P (s.withSend { s.send with offered := .none }) := K.send s _ ⟨fun hs => hs, fun h => absurd rfl h⟩ h
  have hwires := K.line _ _ (lineStep_releaseWires (s.withSend { s.send with offered := .none })) hoffer
  have hflags := K.thenStation hwires (stationStep_pending _ false false)
  have hsilent := K.notify (stationNotice (some s.station.state) cause kind (s.withStation
    { s.station with state := .silent, leavePending := false, dupPending := false }))
    (K.thenStation hflags (stationStep_silent _ (show State.online _ from ho)
      (by simpa [State.usesLine, Line.releaseWires] using hr)))
  have hquiet : ∀ x : State, P (x.withSend { x.send with offered := .none }) →
      P (Machine.eitherOrder Machine.silenceQueue Machine.clockLeavesActive x) := by
    intro x hx
    rcases eitherOrder_cases Machine.silenceQueue Machine.clockLeavesActive x with e | e | e <;> rw [e]
    · exact K.clockLeavesActive (K.silenceQueue (s := x.withSend { x.send with offered := .none }) hx)
    · rw [silenceQueue_clockLeavesActive]
      exact K.silenceQueue (K.clockLeavesActive (K.order _ _ hx))
    · exact K.clockLeavesActive (K.silenceQueue
        (s := (x.withSend { x.send with offered := .none }).withOrder (x.order + 1)) (K.order _ _ hx))
  exact hquiet _ hsilent

/-- R121, R159, R166: the reactions of station control, after a frame of this station is over. -/
theorem closeFrame (ho : s.online) (hr : s.line.role ≠ .sender) (h : P s) : P (closeFrame s) := by
  unfold Machine.closeFrame
  dsimp only
  split
  · exact K.decoder _ _ (K.enterSilent _ _ ho hr h)
  · split
    · exact K.decoder _ _ (K.enterSilent _ _ ho hr h)
    · exact K.decoder _ _ h

theorem hostPortOutcome (o : Outcome) (h : P s) : P (hostPortOutcome o s) := by
  have hfreed : P (s.withPort { s.port with reservation := none }) := K.port s _ Port.safe_freed h
  unfold Machine.hostPortOutcome
  split
  · exact h
  · cases o with
    | commit => exact K.notify _ hfreed
    | void | unheard | aborted => exact hfreed

theorem removeMarked (h : P s) : P (removeMarked s) := by
  unfold Machine.removeMarked
  split
  · exact K.notify _ (K.cues s _ (.of_sublist (removeKey_sublist _ _) (.inr rfl)) h)
  · exact K.cues s _ (cuesStep_offer s none) h

/-- R34, R41, R122: an outcome that commits nothing. -/
theorem deliverUncommitted {o : Outcome} (hc : o ≠ .commit) (h : P s) : P (deliverToOwner o s) := by
  unfold deliverToOwner
  split
  · cases o with
    | commit => exact absurd rfl hc
    | void | unheard | aborted =>
      exact K.clock s _ (clockStep_marks s none s.clock.markTime s.clock.slewSinceMark) h
  · unfold cueTableOutcome
    split
    · exact h
    · split
      · exact absurd rfl hc
      · exact K.cues s _ (.of_sublist (List.Sublist.refl _) (.inl rfl)) h
      · exact absurd rfl hc
      · exact K.cues s _ (cuesStep_clearMarks s none) h
      · exact K.cues s _ (cuesStep_offer s none) h
      · exact K.cues s _ (cuesStep_offer s none) h
  · exact K.hostPortOutcome o h
  · exact h

/-- R108: a fault aborts the frame on the line, as the line record `l` shows it. -/
theorem abortFrame (cause : LineErrorCause) (wire : Option Wire) (l : Line) (ho : s.online) (h : P s) :
    P (abortFrame cause wire (s.withLine l)) := by
  have hover : P (s.withLine (l.frameOver .recover)) := K.line s _ (.of_idle rfl (by simp) ho) h
  have howner := K.deliverUncommitted (o := .aborted) (by decide) hover
  have hline := (touches_deliverToOwner .aborted (s.withLine (l.frameOver .recover))).line (by simp)
  have hwork := K.work (deliverToOwner .aborted (s.withLine (l.frameOver .recover)))
    { (deliverToOwner .aborted (s.withLine (l.frameOver .recover))).work with arbLost := false, evaluate := false }
    ⟨rfl, .inl ⟨fun h => (by cases h), fun h => (by cases h)⟩⟩ howner
  have hclosed : ∀ x : State, P x → x.line = l.frameOver .recover → P (Machine.closeFrame x) := fun x hx hl =>
    K.closeFrame (.inl (by rw [hl]; simp)) (by rw [hl]; simp) hx
  have hattempt : ∀ x : State, P x → P (if l.sendsFrame = true then Machine.attemptOutcome .broken x else x) := by
    intro x hx
    split
    · exact K.attemptOutcome _ hx
    · exact hx
  refine hclosed _ (K.eitherOrder hattempt (fun _ h => K.notify _ h) hwork) ?_
  refine ((Touches.eitherOrder (bs := [.send, .port]) (fun x => ?_) (fun x => (Touches.notify _ x).mono (by simp)) _).line
    (by simp)).trans hline
  split
  · exact touches_attemptOutcome _ x
  · exact .refl _ x

end StandsThroughUpdates

/-! ### The moves -/

section
variable {P Q : State → Prop} (KP : StandsThroughUpdates P) (KQ : StandsThroughUpdates Q) (M : StandsThroughMoves P Q) {s : State}
include KP KQ M

omit KP in
/-- R74 to R78: the adoption of a beacon. -/
theorem adoptBeacon_stands (b : BeaconRecord) (hw : s.work.advance = none) (ho : s.online) (h : P s) : Q (adoptBeacon b s) := by
  have hadopted := M.adopt s b hw ho h
  unfold adoptBeacon
  split
  · exact KQ.clock s _ (clockStep_marks s none s.clock.markTime s.clock.slewSinceMark) (M.weaken s h)
  · rename_i cause _
    cases cause with
    | none =>
      dsimp only
      split
      · exact KQ.enterActive _ hadopted
      · exact hadopted
    | some k =>
      dsimp only
      split
      · exact KQ.enterActive _ (KQ.notify _ hadopted)
      · exact KQ.notify _ hadopted

/-- R121: the outcome at the owner of the frame that has just ended. -/
theorem deliverToOwner_stands (o : Outcome) (hw : s.work.advance = none) (ho : s.online) (h : P s) : Q (deliverToOwner o s) := by
  by_cases hc : o = .commit
  · subst hc
    unfold deliverToOwner
    split
    · unfold lineClockOutcome
      dsimp only
      split
      · unfold ownBeaconCommits
        split
        · exact M.weaken s h
        · exact KQ.notify _ (KQ.clock s _ (clockStep_ownBeacon s ho) (M.weaken s h))
      · split
        · rename_i b _
          have hslot : P (yieldSlot b.sender s) := by
            unfold yieldSlot
            split
            · exact KP.send s _ ⟨fun hs => hs, fun ho => .inl ho⟩ h
            · exact h
          have htouch := touches_yieldSlot b.sender s
          refine adoptBeacon_stands KQ M b ((congrArg Work.advance (htouch.work (by simp))).trans hw) ?_ hslot
          unfold State.online at ho ⊢
          rwa [htouch.line (by simp), htouch.work (by simp), htouch.station (by simp)]
        · exact M.weaken s h
    · unfold cueTableOutcome
      split
      · exact M.weaken s h
      · rename_i r _
        cases r.effect with
        | newEntry =>
          change Q (armProvisional s)
          unfold armProvisional
          split
          · rename_i e he
            exact KQ.notify _ (M.arm s e hw he h)
          · exact KQ.cues s _ (cuesStep_offer s none) (M.weaken s h)
        | marked => exact KQ.removeMarked (M.weaken s h)
        | held | none => exact KQ.cues s _ (cuesStep_offer s none) (M.weaken s h)
    · exact KQ.hostPortOutcome .commit (M.weaken s h)
    · exact M.weaken s h
  · exact KQ.deliverUncommitted hc (M.weaken s h)

/-- R101, R102, R121: the end of a frame, met with no advance in hand. -/
theorem deliverOutcome_stands (take veto : Level) (l : Line) (hw : s.work.advance = none) (ho : s.online) (h : P s) :
    Q (deliverOutcome take veto (s.withLine l)) := by
  have hover : P (s.withLine (l.frameOver .waitIdle)) := KP.line s _ (.of_idle rfl (by simp) ho) h
  have hattempt : ∀ {R : State → Prop}, StandsThroughUpdates R → ∀ x : State, R x →
      R (if l.sendsFrame = true then attemptOutcome (attemptOf (outcomeOf take veto)) x else x) := by
    intro R K x hx
    split
    · exact K.attemptOutcome _ hx
    · exact hx
  have htouch : ∀ x : State, Touches [.send, .port] x
      (if l.sendsFrame = true then attemptOutcome (attemptOf (outcomeOf take veto)) x else x) := by
    intro x
    split
    · exact touches_attemptOutcome _ x
    · exact .refl _ x
  have hdeliver : ∀ x : State, P x → x.line = l.frameOver .waitIdle → x.work.advance = none →
      Q (deliverToOwner (outcomeOf take veto) x) := fun x hx hl hwx =>
    deliverToOwner_stands KP KQ M _ hwx (.inl (by rw [hl]; simp)) hx
  have hboth : Q (eitherOrder (deliverToOwner (outcomeOf take veto))
      (fun x => if l.sendsFrame = true then attemptOutcome (attemptOf (outcomeOf take veto)) x else x)
      (s.withLine (l.frameOver .waitIdle))) := by
    rcases eitherOrder_cases (deliverToOwner (outcomeOf take veto))
      (fun x => if l.sendsFrame = true then attemptOutcome (attemptOf (outcomeOf take veto)) x else x)
      (s.withLine (l.frameOver .waitIdle)) with e | e | e <;> rw [e]
    · exact hattempt KQ _ (hdeliver _ hover rfl hw)
    · have hord := KP.order _ ((s.withLine (l.frameOver .waitIdle)).order + 1) hover
      refine hdeliver _ (hattempt KP _ hord) ((htouch _).line (by simp)) ?_
      rw [(htouch _).work (by simp)]; exact hw
    · exact hattempt KQ _ (hdeliver _ (KP.order _ _ hover) rfl hw)
  have hline := (Touches.eitherOrder (bs := [.clock, .work, .station, .send, .cues, .port])
    (fun x => (touches_deliverToOwner (outcomeOf take veto) x).mono (by simp)) (fun x => (htouch x).mono (by simp))
    (s.withLine (l.frameOver .waitIdle))).line (by simp)
  have hclosed : ∀ x : State, Q x → x.line = l.frameOver .waitIdle → Q (closeFrame x) := fun x hx hl =>
    KQ.closeFrame (.inl (by rw [hl]; simp)) (by rw [hl]; simp) hx
  exact hclosed _ hboth hline

end

end Sys2Proof.Machine
end

section
/-! SUPPORT. The host's commands stand the walk: what each owner does at a station that is not in a full reset, and how the port takes
and answers it (R167 to R169). -/

namespace Sys2Proof.Machine

/-- R153, R154: a station at its reset values meets every invariant. -/
theorem meetsAll_fresh {pins : Pins} {station : Station} {points : Points} {order : Nat} {pending : List Instr}
    (hpulses : points.pulses = []) (hreset : pins.nrst = .low → station.state = .halted)
    (hsetup : station.setup = .default) : ({ State.reset with
        pins := pins, station := station, points := points, order := order, pending := pending } : State).MeetsAll where
  port := ⟨Nat.zero_le _, Nat.zero_le _⟩
  send := ⟨Nat.zero_le _, (fun _ h => nomatch h), Nat.zero_le _, List.nodup_nil, (fun _ h => nomatch h)⟩
  line := ⟨(fun h => nomatch h), (fun h => nomatch h), fun _ => ⟨rfl, rfl, rfl, rfl⟩, fun h => hreset (eq_of_beq h)⟩
  table := by
    rw [State.tableSafe_iff]
    refine ⟨⟨Nat.zero_le _, List.nodup_nil, (fun _ h => nomatch h)⟩, ?_, fun _ => ⟨rfl, rfl, hpulses⟩⟩
    change points.Sound
    rw [Points.Sound, hpulses]
    exact ⟨List.nodup_nil, (fun _ h => nomatch h)⟩
  order := ⟨List.Pairwise.nil, (fun _ h => nomatch h)⟩
  span := fun _ h => nomatch h
  clock := by
    rw [State.clockSafe_iff]
    refine ⟨?_, ?_, fun _ => rfl⟩
    · constructor <;> simp [State.reset, Clock.reset, Config.beaconPeriod]
    · change station.setup.periodCode.toNat ≤ 3
      rw [hsetup]
      decide
  counts := by
    rw [State.countsSafe_iff]
    refine ⟨⟨List.length_replicate, fun r hr => ?_⟩, fun i => ?_⟩
    · rw [List.eq_of_mem_replicate hr]
      exact PeerRecord.bounded_reset
    · match i with
      | 0 | 1 | 2 | 3 => exact trivial

/-- R154. -/
theorem meetsAll_restarted (straps : Straps) {s : State} (h : s.inReset = false) : (restarted straps s).MeetsAll :=
  meetsAll_fresh rfl (fun hr => by simp [State.inReset, hr] at h) rfl

/-- R156: a record that the arguments carry is within its ranges. -/
theorem ok_of_parseSetup {args : List Byte} {r : SetupRecord} (h : parseSetup args = some r) : r.ok = true := by
  cases args with
  | nil => cases h
  | cons count rest =>
    unfold parseSetup at h
    dsimp only at h
    split at h
    · split at h
      · rename_i hok
        injection h with h
        rwa [← h]
      · cases h
    · cases h

theorem periodCode_of_ok {r : SetupRecord} (h : r.ok = true) : r.periodCode.toNat ≤ 3 := by
  simp only [SetupRecord.ok, Bool.and_eq_true, decide_eq_true_eq] at h
  exact h.1.1.1.1.2

/-- R157: the station that JOIN leaves, its notices apart. -/
def State.joining (s : State) : State :=
  ((((s.withStation { s.station with state := .listen }).withInputs (joinInputs s).inputs).withPoints
    (s.points.joined s.station.setup)).withClock (s.clock.joined s.station.setup)).withLine
      { s.line with state := .waitIdle, idleCount := 0 }

theorem runJoin_of_setup {s : State} (h : s.station.state = .setup) : runJoin s = (okWith [stationStateByte .listen],
    notifyAll (clearedNotices s) (notify (stationNotice (some .setup) .joined none s.joining) s.joining)) := by
  rw [← h]
  exact if_neg (not_not.2 h)

/-- R135: PURGE ends the entries not in flight. -/
theorem purge_eq_notifyAll (s : State) :
    endEntries .purged (purgedEntries s.send.queue) (s.withSend { s.send with
      queue := purgedQueue s.send.queue, offered := if s.send.offered = .head then .none else s.send.offered }) =
    notifyAll ((purgedEntries s.send.queue).map fun e => s.doneWith .purged e)
      (s.withSend { s.send with
        queue := purgedQueue s.send.queue, issued := s.send.issued ++ issuedByEnding (purgedEntries s.send.queue),
        offered := if s.send.offered = .head then .none else s.send.offered }) := by
  rw [endEntries_eq_notifyAll, issuedAfter_foldl .purged (by decide)]
  rfl

namespace StandsThroughUpdates
variable {P : State → Prop} (K : StandsThroughUpdates P) {s : State}
include K

/-! ### Station control -/

theorem runSetup (args : List Byte) (h : P s) : P (runSetup args s).2 := by
  unfold Machine.runSetup
  split
  · exact h
  · split
    · rename_i r hr
      exact K.station s _ (stationStep_setup s r (periodCode_of_ok (ok_of_parseSetup hr))) h
    · exact h

theorem joining (hs : s.station.state = .setup) (hr : s.inReset = false) (h : P s) : P s.joining := by
  unfold State.joining
  have hlisten : P (s.withStation { s.station with state := .listen }) := K.station s _ (stationStep_listen s hs hr) h
  have hinputs : P ((s.withStation { s.station with state := .listen }).withInputs (joinInputs s).inputs) := by
    refine K.inputs _ _ (fun hc => ?_) hlisten
    rw [State.countsSafe_iff] at hc ⊢
    obtain ⟨hpeers, hcaptures⟩ := hc
    refine ⟨hpeers, fun i => ?_⟩
    have hi := hcaptures i
    match i with
    | 0 | 1 | 2 | 3 => exact hi
  generalize hs1 : (s.withStation { s.station with state := .listen }).withInputs (joinInputs s).inputs = s1 at hinputs ⊢
  have hpoints : P (s1.withPoints (s1.points.joined s1.station.setup)) := by
    refine K.points s1 _ (fun ht => ht.withPoints (pointsStep_joined _ ?_)) hinputs
    obtain ⟨-, -, hnothing⟩ := (State.tableSafe_iff _).1 ht
    exact (hnothing (by rw [← hs1]; rfl)).2.2
  have hclock := K.clock _ _ (clockStep_joined (s1.withPoints (s1.points.joined s1.station.setup))) hpoints
  generalize hs2 : (s1.withPoints (s1.points.joined s1.station.setup)).withClock
    ((s1.withPoints (s1.points.joined s1.station.setup)).clock.joined
      (s1.withPoints (s1.points.joined s1.station.setup)).station.setup) = s2 at hclock
  have hline := K.line s2 { s2.line with state := .waitIdle, idleCount := 0 }
    (.of_state rfl (by simp) (.inr (.inr (.inr (.inr (by subst hs2 hs1; simp)))))) hclock
  subst hs2 hs1
  exact hline

theorem runJoin (hr : s.inReset = false) (h : P s) : P (runJoin s).2 := by
  by_cases hs : s.station.state = .setup
  · rw [runJoin_of_setup hs]
    exact K.notifyAll _ (K.notify _ (K.joining hs hr h))
  · rw [show Machine.runJoin s = (refusal .wrongState, s) from if_pos hs]
    exact h

theorem runLeave (h : P s) : P (runLeave s).2 := by
  have hleave : s.station.state ≠ .setup → s.station.state ≠ .halted → P (runLeave.leave s).2 := by
    intro hs hh
    unfold runLeave.leave
    split
    · exact h
    · split
      · exact K.station s _ (stationStep_pending s true s.station.dupPending) h
      · rename_i hrole
        exact K.enterSilent .leave none (.inr (.inr (.inr (.inr ⟨hs, hh⟩)))) hrole h
  unfold Machine.runLeave
  cases hs : s.station.state with
  | halted | setup | silent => exact h
  | listen | active => exact hleave (by rw [hs]; simp) (by rw [hs]; simp)

theorem runRestart (straps : Straps) (hr : s.inReset = false) (h : P s) : P (runRestart straps s).2 := by
  have hfresh := K.fresh s _ (meetsAll_restarted straps hr) rfl h
  unfold Machine.runRestart
  dsimp only
  split
  · exact K.notify _ hfresh
  · exact hfresh

/-! ### The send unit -/

theorem joinQueue {e : SendEntry} (hroom : s.send.queueRoom = true) (hflight : e.inFlight = false)
    (hser : e.kind ≠ .message → e.serial.isSome = true) (hcue : e.kind ≠ .cue) (h : P s) : P (joinQueue e s) :=
  K.send s _ ⟨fun hs => hs.joined e hroom hflight hser fun hk => absurd hk hcue, fun ho => .inl ho⟩ h

theorem joinCue (handle : Byte) (source : Source) (scope : Scope) (fields : List Byte) (hroom : s.send.queueRoom = true)
    (hserials : s.send.serialRoom = true) (h : P s) : P (joinCue handle source scope fields s) :=
  K.send s _ ⟨fun hs => hs.joinedCue
    (newEntry s handle source .cue scope (s.send.nextSerial :: fields) (some s.send.nextSerial)) hroom hserials rfl rfl, fun ho => .inl ho⟩ h

theorem runSend (args : List Byte) (h : P s) : P (runSend args s).2 := by
  have hcue : ∀ handle mode number fields, P (runSendCue handle mode number fields s).2 := by
    intro handle mode number fields
    unfold runSendCue
    split
    · exact h
    · split
      · split
        · exact h
        · rename_i hroom
          split
          · exact h
          · rename_i hserials
            exact K.joinCue handle .host _ fields (by simpa using hroom) (by simpa using hserials) h
      · exact h
  have hwithdraw : ∀ handle serial, P (runSendWithdraw handle serial s).2 := by
    intro handle serial
    unfold runSendWithdraw
    split
    · exact h
    · rename_i hroom
      split
      · exact K.joinQueue (by simpa using hroom) rfl (fun _ => rfl) (by simp [newEntry]) h
      · exact h
  have hmessage : ∀ handle mode number payload, P (runSendMessage handle mode number payload s).2 := by
    intro handle mode number payload
    unfold runSendMessage
    split
    · split
      · exact h
      · split
        · exact h
        · rename_i hroom
          exact K.joinQueue (by simpa using hroom) rfl (by simp [newEntry]) (by simp [newEntry]) h
    · exact h
  have hsend : P (runSend.send args s).2 := by
    unfold runSend.send
    split
    · split
      · exact hcue _ _ _ _
      · split
        · exact hwithdraw _ _
        · exact hmessage _ _ _ _
    · exact h
  unfold Machine.runSend
  cases s.station.state with
  | halted | setup | silent => exact h
  | listen | active => exact hsend

theorem runPurge (h : P s) : P (runPurge s).2 := by
  unfold Machine.runPurge
  split
  · exact h
  · dsimp only
    rw [purge_eq_notifyAll]
    refine K.notifyAll _ (K.send s _ ⟨fun hs => hs.purged _, fun ho => .inl fun hn => ho ?_⟩ h)
    rw [if_neg (by simp [hn])]
    exact hn

/-! ### The other commands -/

theorem runNextNotice (h : P s) : P (runNextNotice s).2 := by
  unfold Machine.runNextNotice
  split
  · exact h
  · split
    · rename_i hq
      exact K.port s _ (Port.safe_tail hq) h
    · exact h

theorem runStatus (h : P s) : P (runStatus s).2 := K.port s _ (fun hp => ⟨hp.1, Nat.zero_le _⟩) h

theorem runSetPoints (mask levels : Word16) (h : P s) : P (runSetPoints mask levels s).2 := by
  unfold Machine.runSetPoints
  split
  · exact h
  · exact K.points s _ (fun ht => ht.withPoints (pointsStep_hostSet s mask levels)) h

theorem runDropCue (issuer serial : Byte) (h : P s) : P (runDropCue issuer serial s).2 := by
  unfold Machine.runDropCue
  split
  · exact h
  · split
    · exact h
    · split
      · exact h
      · split
        · exact K.notify _ (K.cues s _ (.of_sublist (removeKey_sublist _ _) (.inr rfl)) h)
        · exact h

theorem fourSet (i : Fin 4) (x : TriggerInput) (hx : (fourGet s.inputs i).capture.Bounded → x.capture.Bounded) (h : P s) :
    P (s.withInputs (Machine.fourSet s.inputs i x)) :=
  K.inputs s _ (fun hc => hc.fourSet i x (hx (hc.bounded i))) h

theorem runLoadTrigger (args : List Byte) (h : P s) : P (runLoadTrigger args s).2 := by
  have hput : ∀ i t, P (putTemplate i t s).2 := fun i t => K.fourSet i _ id h
  have hload : P (loadTemplate args s).2 := by
    unfold loadTemplate
    split
    · split
      · split
        · exact hput _ _
        · split
          · exact h
          · split
            · exact h
            · split
              · exact hput _ _
              · exact h
      · exact h
    · exact h
  unfold Machine.runLoadTrigger
  cases s.station.state with
  | halted | silent => exact h
  | setup | listen | active => exact hload

theorem runReadCapture (input : Byte) (h : P s) : P (runReadCapture input s).2 := by
  have hempty : ∀ i : Fin 4, P (s.withInputs (Machine.fourSet s.inputs i { fourGet s.inputs i with capture := .empty })) :=
    fun i => K.fourSet i _ (fun _ => trivial) h
  unfold Machine.runReadCapture
  split
  · exact h
  · split
    · unfold readCaptureAt
      dsimp only
      split
      · exact hempty _
      · exact hempty _
      · exact h
    · exact h

/-! ### The port (R167 to R169) -/

theorem answerCommand (name : Option CommandName) (r : Response) (h : P s) : P (answerCommand name r s) :=
  K.port s _ (fun hp => hp) h

theorem ignoreBytes (n : Nat) (h : P s) : P (ignoreBytes n s) := by
  unfold Machine.ignoreBytes
  split
  · exact h
  · exact K.port s _ (Port.safe_clocked n) h

theorem trailingBytes (n : Nat) (h : P s) : P (trailingBytes n s) := by
  refine K.port s _ (fun hp => ?_) h
  exact Port.safe_clocked (p := { s.port with phase := .results }) n hp

theorem cutShort (clocked : Bool) (h : P s) : P (cutShort clocked s) := by
  refine K.port s _ (fun hp => ?_) h
  cases clocked
  · exact hp
  · exact hp

theorem ncs (v : Level) (h : P s) : P (s.withPins { s.pins with ncs := v }) := K.pins s _ rfl h

section
variable (A : ∀ s : State, P s → P (finishAdvance s))
include A

theorem hostCommand (name : CommandName) {run : State → Response × State}
    (hrun : ∀ t : State, t.inReset = false → P t → P (run t).2) (h : P s) : P (hostCommand name run s) := by
  have hsettled := K.settle A h
  unfold Machine.hostCommand
  dsimp only
  split
  · rename_i htakes
    have hr : (Machine.settle s).inReset = false := by
      simp only [State.takesCommand, Bool.and_eq_true, Bool.not_eq_true'] at htakes
      exact htakes.1
    exact K.answerCommand _ _ (hrun _ hr hsettled)
  · exact K.ignoreBytes 1 hsettled

theorem shapedCommand (name : CommandName) (shape : List Byte → Shape) {run : List Byte → State → Response × State}
    (hrun : ∀ args (t : State), P t → P (run args t).2) (args : List Byte) (h : P s) :
    P (shapedCommand name shape run args s) := by
  have hsettled := K.settle A h
  unfold Machine.shapedCommand
  dsimp only
  split
  · split
    · exact K.trailingBytes _ (K.answerCommand _ _ (hrun _ _ hsettled))
    · exact K.trailingBytes _ (K.answerCommand _ _ hsettled)
    · split
      · exact K.port _ _ (fun hp => hp) hsettled
      · exact K.cutShort true hsettled
  · exact K.ignoreBytes _ hsettled

end

end StandsThroughUpdates

end Sys2Proof.Machine
end

section
/-! SUPPORT. The walk's end: the events of the line, the pins and the crystal, and so every row of the table, lead from a state that meets
an invariant to one that meets it. -/

namespace Sys2Proof.Machine

/-- R85, R124: the offered head or beacon goes onto the line; anything else that stood offered lapses. -/
theorem SendUnit.started_offered (u : SendUnit) (own : Bool) : (u.started own).offered = .none := by
  unfold SendUnit.started
  cases own with
  | false => rfl
  | true =>
    cases h : u.offered with
    | none => simp [h]
    | head | beacon => simp

theorem SendUnit.Safe.started {u : SendUnit} (h : u.Safe) (own : Bool) : (u.started own).Safe := by
  unfold SendUnit.started
  cases own with
  | false => exact h
  | true =>
    cases ho : u.offered with
    | none => simpa using h
    | beacon => exact h
    | head =>
      cases hq : u.queue with
      | nil => exact h.of_subperm (List.nil_sublist _) (by
        rw [cueSerials_eq, cueSerials_eq, hq]
        exact List.Subperm.refl _)
      | cons e rest => exact h.headReplaced (e' := { e with inFlight := true }) hq rfl rfl

/-- R147: an emission is queued only where the send unit has room. -/
theorem room_of_emissionOutcome {s : State} (h : emissionOutcome s = .queued) :
    s.send.queueRoom = true ∧ s.send.serialRoom = true := by
  have hroom : ∀ b c : Bool, (if b = true then (if c = true then TriggerOutcome.queued else .droppedFull)
      else .droppedUnsynced) = .queued → c = true := by decide
  rw [← Bool.and_eq_true_iff]
  unfold emissionOutcome at h
  cases hst : s.station.state with
  | listen | active => rw [hst] at h; exact hroom _ _ h
  | silent | setup | halted => rw [hst] at h; cases h

namespace StandsThroughUpdates
variable {P : State → Prop} (K : StandsThroughUpdates P) {s : State}
include K

theorem thenSend {u : SendUnit} (h : P s) (hu : SendStep s u) : P (s.withSend u) := K.send s u hu h

theorem thenClock {c : Clock} (h : P s) (hc : ClockStep s c) : P (s.withClock c) := K.clock s c hc h

/-! ### The trigger unit -/

theorem emit (i : Fin 4) (t : Template) (e : Edge) (h : P s) : P (emit i t e s) := by
  unfold Machine.emit
  dsimp only
  split
  · rename_i hq
    obtain ⟨hqueue, hserials⟩ := room_of_emissionOutcome hq
    have hjoined := K.joinCue 0 (.trigger i) t.scope
      (bytes4 (s.clock.lineTime + t.lead.setWidth 32) ++ planBytes t.rep t.actions) hqueue hserials h
    exact K.notify _ (K.fourSet i _ id hjoined)
  · exact K.notify _ h

theorem takeEdge (i : Fin 4) (e : Edge) (h : P s) : P (takeEdge i e s) := by
  have hcaught : P (s.withInputs (Machine.fourSet s.inputs i
      { fourGet s.inputs i with capture := captureEdge s.clock.lineTime e (fourGet s.inputs i).capture })) :=
    K.fourSet i _ (fun hc => hc.captureEdge _ _) h
  unfold Machine.takeEdge
  dsimp only
  split
  · split
    · exact K.emit i _ e hcaught
    · exact hcaught
  · exact hcaught

theorem onTriggerEdge (i : Fin 4) (v : Level) (h : P s) : P (onTriggerEdge i v s) := by
  have hpins : P (s.withPins { s.pins with ti := Machine.fourSet s.pins.ti i v }) := K.pins s _ rfl h
  unfold Machine.onTriggerEdge
  dsimp only
  generalize s.withPins { s.pins with ti := Machine.fourSet s.pins.ti i v } = t at hpins ⊢
  split
  · exact hpins
  · have hlevel := K.fourSet i { fourGet t.inputs i with level := v } id hpins
    split
    · exact K.takeEdge i _ hlevel
    · exact hlevel

/-! ### The line -/

/-- The record shows the wires, in a state that may follow. -/
theorem seen {l : Line} (h : P s) (hu : l.uses = s.line.uses) (hs : l.state = s.line.state) (hr : l.role = s.line.role)
    (hh : l.heldEnd = s.line.heldEnd) : P (s.withLine l) :=
  K.line s l (.of_uses_le (fun h => hu ▸ h) hs hr (.inr hh)) h

theorem noOffer (h : P s) : P (s.withSend { s.send with offered := .none }) := K.send s _ ⟨id, fun ho => absurd rfl ho⟩ h

theorem beginFrame (own : Bool) (hidle : s.line.state = .idle) (hown : own = true → s.send.offered ≠ .none) (h : P s) :
    P (beginFrame own s) := by
  have hline := K.line s _ (lineStep_started s own (if own then offeredBits s else []) hidle hown) h
  have hsend := K.thenSend hline (u := s.send.started own)
    ⟨fun hs => SendUnit.Safe.started hs own, fun ho => absurd (s.send.started_offered own) ho⟩
  exact K.decoder _ _ (K.thenClock hsend (clockStep_marks _ s.clock.beacon s.clock.lineTime 0))

theorem onStartCondition (own : Bool) (h : P s) : P (onStartCondition own s) := by
  have habort : s.line.state ≠ .off → P (Machine.abortFrame .framing none (s.withLine ((s.line.seeBothHigh).seeData .low))) :=
    fun ho => K.abortFrame .framing none _ (.inl ho) h
  unfold Machine.onStartCondition
  cases hs : s.line.state with
  | off => exact h
  | idle =>
    dsimp only
    split
    · exact h
    · rename_i hoffer
      exact K.beginFrame own hs (fun ho hn => hoffer ⟨ho, hn⟩) h
  | waitIdle => exact K.seen h rfl rfl rfl rfl
  | recover => exact K.seen h rfl rfl rfl rfl
  | sending | receiving | answering => exact habort (by rw [hs]; simp)

theorem sampleFrameBit (data : Level) (ho : s.line.state ≠ .off) (h : P s) : P (sampleFrameBit data s) := by
  unfold Machine.sampleFrameBit
  dsimp only
  generalize s.decoder.sampled (s.line.position.getD 0 + 1) (s.line.rx ++ [levelBit data]) (levelBit data) = d
  have hline : P (s.withLine (s.line.sampledAt (s.line.position.getD 0 + 1) data d.length)) :=
    K.line s _ (lineStep_sampledAt s _ data d.length) h
  have hdecoder : P (s.withDecoder d) := K.decoder s d h
  have habort : P (Machine.abortFrame .framing none
      ((s.withDecoder d).withLine (s.line.sampledAt (s.line.position.getD 0 + 1) data d.length))) :=
    K.abortFrame .framing none _ (.inl ho) hdecoder
  split
  · exact habort
  · split
    · exact habort
    · exact K.work _ _ ⟨rfl, .inr (.inl ho)⟩ (K.decoder _ d hline)

theorem recovered (ho : s.line.state = .recover) (h : P s) : P (s.withLine s.line.recovered) :=
  K.line s _ (.of_state rfl (by simp [Line.recovered]) (.inl (by rw [ho]; simp))) h

theorem onBitSample (data : Level) (h : P s) : P (onBitSample data s) := by
  unfold Machine.onBitSample
  split
  · exact h
  · rename_i ho
    split
    · split
      · exact K.sampleFrameBit data ho h
      · exact h
    · split
      · rename_i hr
        exact K.recovered hr.1 h
      · exact K.seen h rfl rfl rfl rfl

theorem idleBroken (ho : s.line.state = .idle) (h : P s) :
    P ((s.withLine s.line.idleBroken).withSend { s.send with offered := .none }) :=
  K.noOffer (K.line s _ (.of_state rfl (by simp [Line.idleBroken]) (.inl (by rw [ho]; simp))) h)

theorem onPaceFall (h : P s) : P (onPaceFall s) := by
  have hbit : P (s.withLine s.line.bitBegun) := K.line s _ (lineStep_bitBegun s) h
  unfold Machine.onPaceFall
  cases hs : s.line.state with
  | off => exact h
  | waitIdle => exact K.seen h rfl rfl rfl rfl
  | idle => exact K.idleBroken hs h
  | recover => exact K.seen h rfl rfl rfl rfl
  | sending | receiving => exact hbit
  | answering =>
    dsimp only
    split
    · exact K.abortFrame .framing none _ (.inl (by rw [hs]; simp)) h
    · exact hbit

theorem onStuckLow (wire : Wire) (risen : Bool) (h : P s) : P (onStuckLow wire risen s) := by
  unfold Machine.onStuckLow
  split
  · exact h
  · rename_i hnew
    have ho : s.line.state ≠ .off := by
      intro ho
      simp [Line.stuckIsNew, ho] at hnew
    obtain ⟨hu, hst, hr, hh⟩ := s.line.stuck_eq wire
    split
    · exact K.abortFrame .stuckLow (some wire) _ (.inl ho) h
    · exact K.notify _ (K.noOffer (K.line s _ (.of_state hu (by simp) (.inl ho)) h))

theorem onStall (h : P s) : P (onStall s) := by
  unfold Machine.onStall
  split
  · rename_i hf
    have ho : s.line.state ≠ .off := by
      intro ho
      simp [Line.inFrame, ho] at hf
    split
    · exact K.abortFrame .stuckLow (some .pace) _ (.inl ho) h
    · exact K.abortFrame .stall none s.line (.inl ho) h
  · exact h

theorem onFraming (h : P s) : P (onFraming s) := by
  unfold Machine.onFraming
  split
  · rename_i hf
    have ho : s.line.state ≠ .off := by
      intro ho
      simp [Line.inFrame, ho] at hf
    exact K.abortFrame .framing none s.line (.inl ho) h
  · exact h

theorem onRecoverEnd (h : P s) : P (onRecoverEnd s) := by
  unfold Machine.onRecoverEnd
  split
  · rename_i ho
    exact K.recovered ho h
  · exact h

theorem onLineIdle (h : P s) : P (onLineIdle s) := by
  unfold Machine.onLineIdle
  split
  · rename_i hw
    exact K.line s _ (.of_state rfl (by simp) (.inl (by rw [hw.1]; simp))) h
  · exact h

theorem onPaceFallInIdle (h : P s) : P (onPaceFallInIdle s) := by
  unfold Machine.onPaceFallInIdle
  split
  · rename_i ho
    exact K.idleBroken ho h
  · exact h

theorem onIdleCountReset (wire : Wire) (h : P s) : P (onIdleCountReset wire s) := by
  unfold Machine.onIdleCountReset
  split
  · cases wire <;> exact K.seen h rfl rfl rfl rfl
  · exact h

/-! ### Pins, transactions and resets -/

theorem reset (h : P s) : P { State.reset with pins := { s.pins with nrst := .low }, order := s.order, pending := s.pending } :=
  K.fresh s _ (meetsAll_fresh (points := Points.reset) rfl (fun _ => rfl) rfl) rfl h

theorem released (straps : Straps) (hr : s.inReset = true) (h : P s) :
    P ((s.withPins { s.pins with nrst := .high }).withStation (sampledStation straps)) :=
  K.release s _ _ (stationStep_release s straps hr) h

/-! ### Readers of an advance, one at a time -/

theorem ageIssued (adv : Advance) (h : P s) : P (ageIssued adv s) := by
  refine K.send s _ ⟨fun hs => hs.of_subperm (List.Sublist.refl _) ?_, fun ho => .inl ho⟩ h
  exact ((List.Sublist.refl _).append (List.filter_sublist.map _)).subperm

theorem advanceInputs (adv : Advance) (h : P s) : P (advanceInputs adv s) := by
  refine K.inputs s _ (fun hc => ?_) h
  rw [State.countsSafe_iff] at hc ⊢
  refine ⟨hc.1, fun i => ?_⟩
  rw [State.withInputs_inputs, fourGet_fourMap]
  exact (hc.2 i).holdLimitAt adv

end StandsThroughUpdates

end Sys2Proof.Machine
end

section
/-! SUPPORT. The firing unit's due items (R51, R52): which item an advance brings next, told by the table's head and the pulse list. -/

namespace Sys2Proof.Machine

theorem dueEntry_eq_some_iff (adv : Advance) (s : State) (e : CueEntry) (rest : List CueEntry) :
    dueEntry adv s = some (e, rest) ↔ s.cues.armed = e :: rest ∧ distance e.fireTime adv.base ≤ adv.size := by
  rw [← adv.reaches_iff]
  unfold dueEntry
  cases s.cues.armed with
  | nil => simp
  | cons f fs =>
    dsimp only
    split
    · rename_i hf
      constructor
      · intro h
        injection h with h
        obtain ⟨rfl, rfl⟩ := Prod.mk.inj h
        exact ⟨rfl, hf⟩
      · rintro ⟨h, -⟩
        obtain ⟨rfl, rfl⟩ := List.cons.inj h
        rfl
    · rename_i hf
      constructor
      · intro h; cases h
      · rintro ⟨h, hr⟩
        obtain ⟨rfl, rfl⟩ := List.cons.inj h
        exact absurd hr hf

theorem dueEntry_eq_none_iff (adv : Advance) (s : State) :
    dueEntry adv s = none ↔ ∀ e rest, s.cues.armed = e :: rest → adv.size < distance e.fireTime adv.base := by
  constructor
  · intro h e rest hq
    by_contra hn
    rw [(dueEntry_eq_some_iff adv s e rest).2 ⟨hq, Nat.le_of_not_lt hn⟩] at h
    cases h
  · intro h
    cases hd : dueEntry adv s with
    | none => rfl
    | some x =>
      obtain ⟨hq, hle⟩ := (dueEntry_eq_some_iff adv s x.1 x.2).1 hd
      exact absurd hle (Nat.not_le_of_lt (h _ _ hq))

theorem firstRestore_eq_none_iff (adv : Advance) (ps : List Restore) :
    firstRestore adv ps = none ↔ ∀ r ∈ ps, adv.size < distance r.time adv.base := by
  induction ps with
  | nil => simp [firstRestore]
  | cons r rs ih =>
    rw [List.forall_mem_cons, ← ih, ← not_le, ← adv.reaches_iff]
    rw [firstRestore]
    cases hr : adv.reaches r.time <;> cases hrs : firstRestore adv rs <;> simp

/-- R52: the least distance at which a restore is due. -/
theorem firstRestore_eq_some_iff (adv : Advance) (ps : List Restore) (d : Nat) :
    firstRestore adv ps = some d ↔ d ≤ adv.size ∧ (∃ r ∈ ps, distance r.time adv.base = d) ∧
      ∀ r ∈ ps, d ≤ distance r.time adv.base := by
  induction ps generalizing d with
  | nil => simp [firstRestore]
  | cons r rs ih =>
    have hreach := adv.reaches_iff r.time
    rw [firstRestore]
    cases hrs : firstRestore adv rs with
    | none =>
      have hnone := (firstRestore_eq_none_iff adv rs).1 hrs
      by_cases hr : adv.reaches r.time = true
      · have hle := hreach.1 hr
        rw [if_pos hr]
        simp only [Option.some.injEq, List.exists_mem_cons_iff, List.forall_mem_cons]
        constructor
        · rintro rfl
          exact ⟨hle, .inl rfl, le_rfl, fun x hx => (hle.trans_lt (hnone x hx)).le⟩
        · rintro ⟨hd, he, hmin, -⟩
          rcases he with he | ⟨x, hx, he⟩
          · exact he
          · exact absurd (hnone x hx) (by omega)
      · rw [if_neg hr]
        rw [hreach] at hr
        simp only [reduceCtorEq, List.exists_mem_cons_iff, List.forall_mem_cons, false_iff, not_and]
        rintro hd he hmin
        rcases he with he | ⟨x, hx, he⟩
        · omega
        · exact absurd (hnone x hx) (by omega)
    | some d' =>
      obtain ⟨hd', ⟨x', hx', he'⟩, hmin'⟩ := (ih d').1 hrs
      by_cases hr : adv.reaches r.time = true
      · have hle := hreach.1 hr
        rw [if_pos hr]
        simp only [Option.some.injEq, List.exists_mem_cons_iff, List.forall_mem_cons]
        constructor
        · rintro rfl
          refine ⟨(min_le_right _ _).trans hd', ?_, min_le_left _ _, fun x hx => (min_le_right _ _).trans (hmin' x hx)⟩
          rcases le_total (distance r.time adv.base) d' with h | h
          · exact .inl (min_eq_left h).symm
          · exact .inr ⟨x', hx', he'.trans (min_eq_right h).symm⟩
        · rintro ⟨hd, he, hmin, hmins⟩
          have h' := hmins x' hx'
          rcases he with he | ⟨x, hx, he⟩
          · omega
          · have := hmin' x hx
            omega
      · rw [if_neg hr]
        rw [hreach] at hr
        simp only [Option.some.injEq, List.exists_mem_cons_iff, List.forall_mem_cons]
        constructor
        · rintro rfl
          exact ⟨hd', .inr ⟨x', hx', he'⟩, by omega, hmin'⟩
        · rintro ⟨hd, he, hmin, hmins⟩
          have h' := hmins x' hx'
          rcases he with he | ⟨x, hx, he⟩
          · omega
          · have := hmin' x hx
            omega

/-- R51, R52: an entry is next where the advance reaches the head and no restore is due before it. -/
theorem nextDueItem_eq_entry_iff (adv : Advance) (s : State) (e : CueEntry) (rest : List CueEntry) :
    nextDueItem adv s = some (.entry e rest) ↔ s.cues.armed = e :: rest ∧ distance e.fireTime adv.base ≤ adv.size ∧
      ∀ r ∈ s.points.pulses, distance e.fireTime adv.base ≤ distance r.time adv.base := by
  have hdue := dueEntry_eq_some_iff adv s e rest
  unfold nextDueItem
  cases hr : firstRestore adv s.points.pulses with
  | none =>
    have hnone := (firstRestore_eq_none_iff adv s.points.pulses).1 hr
    have hmin : distance e.fireTime adv.base ≤ adv.size →
        ∀ r ∈ s.points.pulses, distance e.fireTime adv.base ≤ distance r.time adv.base :=
      fun h r hr => (h.trans_lt (hnone r hr)).le
    cases hd : dueEntry adv s with
    | none =>
      rw [hd] at hdue
      simp only [reduceCtorEq, false_iff, not_and] at hdue ⊢
      exact fun hq hle => absurd hle (hdue hq)
    | some x =>
      obtain ⟨f, fs⟩ := x
      rw [hd] at hdue
      simp only [Option.some.injEq, DueItem.entry.injEq, Prod.mk.injEq] at hdue ⊢
      exact hdue.trans ⟨fun ⟨hq, hle⟩ => ⟨hq, hle, hmin hle⟩, fun ⟨hq, hle, _⟩ => ⟨hq, hle⟩⟩
  | some d =>
    obtain ⟨hd, ⟨r0, hr0, he0⟩, hmin⟩ := (firstRestore_eq_some_iff adv s.points.pulses d).1 hr
    cases hd : dueEntry adv s with
    | none =>
      rw [hd] at hdue
      simp only [Option.some.injEq, reduceCtorEq, false_iff, not_and] at hdue ⊢
      exact fun hq hle => absurd hle (hdue hq)
    | some x =>
      obtain ⟨f, fs⟩ := x
      rw [hd] at hdue
      simp only [Option.some.injEq, Prod.mk.injEq] at hdue
      dsimp only
      by_cases hle : distance f.fireTime adv.base ≤ d
      · rw [if_pos hle]
        simp only [Option.some.injEq, DueItem.entry.injEq]
        constructor
        · intro h
          obtain ⟨hq, hsize⟩ := hdue.1 h
          obtain ⟨rfl, rfl⟩ := h
          exact ⟨hq, hsize, fun r hr => hle.trans (hmin r hr)⟩
        · rintro ⟨hq, hsize, -⟩
          exact hdue.2 ⟨hq, hsize⟩
      · rw [if_neg hle]
        simp only [Option.some.injEq, reduceCtorEq, false_iff, not_and]
        intro hq hsize hall
        obtain ⟨rfl, rfl⟩ := hdue.2 ⟨hq, hsize⟩
        exact hle (he0 ▸ hall r0 hr0)

/-- R52: restores are next where one is due and the head's time does not come at or before it. -/
theorem nextDueItem_eq_restores_iff (adv : Advance) (s : State) (d : Nat) :
    nextDueItem adv s = some (.restores d) ↔ d ≤ adv.size ∧ (∃ r ∈ s.points.pulses, distance r.time adv.base = d) ∧
      (∀ r ∈ s.points.pulses, d ≤ distance r.time adv.base) ∧
      ∀ e rest, s.cues.armed = e :: rest → d < distance e.fireTime adv.base := by
  have hrest := firstRestore_eq_some_iff adv s.points.pulses d
  unfold nextDueItem
  cases hd : dueEntry adv s with
  | none =>
    have hnone := (dueEntry_eq_none_iff adv s).1 hd
    have hhead : d ≤ adv.size → ∀ e rest, s.cues.armed = e :: rest → d < distance e.fireTime adv.base :=
      fun h e rest hq => h.trans_lt (hnone e rest hq)
    cases hr : firstRestore adv s.points.pulses with
    | none =>
      rw [hr] at hrest
      simp only [reduceCtorEq, false_iff, not_and] at hrest ⊢
      exact fun hle he hmin => absurd hmin (hrest hle he)
    | some d' =>
      rw [hr] at hrest
      simp only [Option.some.injEq, DueItem.restores.injEq] at hrest ⊢
      exact hrest.trans ⟨fun ⟨hle, he, hmin⟩ => ⟨hle, he, hmin, hhead hle⟩, fun ⟨hle, he, hmin, _⟩ => ⟨hle, he, hmin⟩⟩
  | some x =>
    obtain ⟨f, fs⟩ := x
    obtain ⟨hq, hsize⟩ := (dueEntry_eq_some_iff adv s f fs).1 hd
    cases hr : firstRestore adv s.points.pulses with
    | none =>
      rw [hr] at hrest
      simp only [Option.some.injEq, reduceCtorEq, false_iff, not_and] at hrest ⊢
      exact fun hle he hmin => absurd hmin (hrest hle he)
    | some d' =>
      rw [hr] at hrest
      simp only [Option.some.injEq] at hrest
      dsimp only
      by_cases hle : distance f.fireTime adv.base ≤ d'
      · rw [if_pos hle]
        simp only [Option.some.injEq, reduceCtorEq, false_iff, not_and]
        intro h1 h2 h3 hhead
        have hlt := hhead f fs hq
        have heq := hrest.2 ⟨h1, h2, h3⟩
        omega
      · rw [if_neg hle]
        simp only [Option.some.injEq, DueItem.restores.injEq]
        constructor
        · intro h
          obtain ⟨h1, h2, h3⟩ := hrest.1 h
          refine ⟨h1, h2, h3, fun e rest he => ?_⟩
          obtain ⟨rfl, rfl⟩ := List.cons.inj (hq.symm.trans he)
          omega
        · rintro ⟨h1, h2, h3, -⟩
          exact hrest.2 ⟨h1, h2, h3⟩

/-- R51: nothing is due where the advance reaches neither the head nor a restore. -/
theorem nextDueItem_eq_none_iff (adv : Advance) (s : State) :
    nextDueItem adv s = none ↔ (∀ e rest, s.cues.armed = e :: rest → adv.size < distance e.fireTime adv.base) ∧
      ∀ r ∈ s.points.pulses, adv.size < distance r.time adv.base := by
  rw [← dueEntry_eq_none_iff, ← firstRestore_eq_none_iff]
  unfold nextDueItem
  cases hd : dueEntry adv s with
  | none => cases hr : firstRestore adv s.points.pulses <;> simp
  | some x =>
    cases hr : firstRestore adv s.points.pulses with
    | none => simp
    | some d => dsimp only; split <;> simp

end Sys2Proof.Machine
end

section
/-! SUPPORT. Every row of the table, and so every step, leads from a state that meets an invariant to one that meets it. -/

namespace Sys2Proof.Machine

theorem runTime_state (s : State) : (runTime s).2 = s := by
  unfold runTime
  split <;> rfl

theorem runGetPoints_state (s : State) : (runGetPoints s).2 = s := by
  unfold runGetPoints
  split <;> rfl

theorem runListCue_state (index : Byte) (s : State) : (runListCue index s).2 = s := by
  unfold runListCue
  split
  · rfl
  · split <;> rfl

theorem runPeer_state (id : Byte) (s : State) : (runPeer id s).2 = s := by
  unfold runPeer
  split
  · rfl
  · split
    · rfl
    · split <;> rfl

/-- Every row answers a next state. -/
theorem exec_eq_next_after (c : Instr) (s : State) : exec c s = .next (s.after c) := by cases c <;> rfl

section
variable {P Q : State → Prop} (KP : StandsThroughUpdates P) (KQ : StandsThroughUpdates Q) (M : StandsThroughMoves P Q) {s : State}

section
include KP M

omit KP in
theorem firing_stands (KQ : StandsThroughUpdates Q) (h : P s) : Q (s.after .firing) := by
  unfold State.after
  dsimp only [exec, execFiring]
  split
  · rename_i adv e rest hit
    unfold State.dueItem at hit
    split at hit
    · rename_i adv' hadv
      obtain ⟨it, hit, heq⟩ := Option.map_eq_some_iff.1 hit
      obtain ⟨rfl, rfl⟩ := Prod.mk.inj heq
      obtain ⟨hq, hle, -⟩ := (nextDueItem_eq_entry_iff adv' s e rest).1 hit
      exact KQ.notify _ (M.fire s adv' e rest hadv hq ((adv'.reaches_iff _).2 hle) h)
    · cases hit
  · exact M.weaken s h
  · exact M.weaken s h

theorem restore_stands (h : P s) : Q (s.after .restore) := by
  refine M.weaken _ ?_
  unfold State.after
  dsimp only [exec, execRestore]
  split
  · exact KP.points s _ (fun ht => ht.withPoints (pointsStep_applyRestores s _ _)) h
  · exact h
  · exact h

theorem tick_stands (h : P s) : Q (s.after .tick) ∧ Q (s.after .slewedTick) := by
  have hs := KP.settle M.advance h
  have hmoved := M.tick (settle s) (settle_work s) hs
  unfold State.after
  dsimp only [exec, execTick, execSlewedTick]
  constructor
  · split
    · exact M.weaken _ hs
    · exact hmoved
  · split
    · exact M.weaken _ hs
    · exact hmoved

theorem answerReady_stands (KQ : StandsThroughUpdates Q) (hw : s.work.advance = none) (h : P s) : Q (onAnswerReady s) := by
  unfold onAnswerReady
  split
  · exact M.weaken _ h
  · split
    · rename_i take veto hheld
      exact deliverOutcome_stands KP KQ M take veto _ hw (.inr (.inl (by rw [hheld]; simp))) h
    · split
      · exact M.weaken _ h
      · exact M.weaken _ (KP.line s _ (lineStep_answeredWith s _) h)

theorem endCondition_stands (KQ : StandsThroughUpdates Q) (hw : s.work.advance = none) (h : P s) : Q (onEndCondition s) := by
  have habort : s.line.state ≠ .off → Q (abortFrame .framing none (s.withLine s.line.seeBothHigh)) := fun ho =>
    KQ.abortFrame .framing none _ (.inl ho) (M.weaken s h)
  unfold onEndCondition
  cases hs : s.line.state with
  | off => exact M.weaken s h
  | waitIdle | idle => exact KQ.seen (M.weaken s h) rfl rfl rfl rfl
  | recover => exact KQ.recovered hs (M.weaken s h)
  | sending | receiving => exact habort (by rw [hs]; simp)
  | answering =>
    have ho : s.line.state ≠ .off := by rw [hs]; simp
    dsimp only
    split
    · split
      · exact deliverOutcome_stands KP KQ M _ _ _ hw (.inl ho) h
      · exact KQ.line s _ (.of_idle rfl (by simp) (.inl ho)) (M.weaken s h)
    · exact habort ho

/-- A due time met by one of its rows (log entry 10). -/
theorem dueRow_stands {c : Prop} [Decidable c] (h : P s) : Q (if c then finishDue s else s) := by
  split
  · exact M.weaken _ (KP.finishDue h)
  · exact M.weaken _ h

theorem transactionEnd_stands (h : P s) : P (s.after .transactionEnd) := by
  have hs := KP.settle M.advance h
  have hpins := KP.ncs .high hs
  unfold State.after
  dsimp only [exec, execTransactionEnd]
  split
  · exact hpins
  · split
    · exact KP.cutShort false hpins
    · exact KP.cutShort true hpins
    · exact hpins
    · exact KP.port _ _ (fun hp => hp) hpins
    · exact KP.port _ _ (fun hp => hp) hpins

theorem transactionCutShort_stands (bits : Nat) (h : P s) : P (s.after (.transactionCutShort bits)) := by
  have hs := KP.settle M.advance h
  have hpins := KP.ncs .high hs
  unfold State.after
  dsimp only [exec, execTransactionCutShort]
  split
  · exact hpins
  · split
    · exact KP.cutShort _ hpins
    · exact KP.cutShort true hpins
    · split
      · exact KP.cutShort _ hpins
      · exact hpins
    · exact KP.port _ _ (fun hp => hp) hpins
    · exact KP.port _ _ (fun hp => hp) hpins

theorem transactionBegin_stands (h : P s) : P (s.after .transactionBegin) := by
  have hs := KP.settle M.advance h
  have hpins := KP.ncs .low hs
  unfold State.after
  dsimp only [exec, execTransactionBegin]
  split
  · exact hpins
  · exact KP.port _ _ (fun hp => hp) hpins

theorem resetRelease_stands (straps : Straps) (h : P s) : P (s.after (.resetRelease straps)) := by
  have hs := KP.settle M.advance h
  unfold State.after
  dsimp only [exec, execResetRelease]
  split
  · rename_i hr
    have hreleased := KP.released straps hr hs
    split
    · exact KP.notify _ hreleased
    · exact hreleased
  · exact hs

theorem unknownCommand_stands (code : Byte) (h : P s) : P (s.after (.unknownCommand code)) := by
  have hs := KP.settle M.advance h
  unfold State.after
  dsimp only [exec, execUnknownCommand]
  split
  · split
    · exact hs
    · exact KP.answerCommand _ _ hs
  · exact KP.ignoreBytes 1 hs

omit M in
/-- The rows of the readers, one input or the issued list at a time (R130, R143, R149). -/
theorem reader_stands (h : P s) :
    P (s.after .ageOut) ∧ (∀ i, P (s.after (.holdLimit i))) ∧ ∀ i, P (s.after (.gapEnd i)) := by
  unfold State.after
  dsimp only [exec, execAgeOut, execHoldLimit, execGapEnd]
  refine ⟨?_, fun i => ?_, fun i => ?_⟩
  · split
    · exact KP.ageIssued _ h
    · exact h
  · split
    · exact KP.fourSet i _ (fun hc => hc.holdLimitAt _) h
    · exact h
  · split
    · exact KP.fourSet i _ id h
    · exact h

end

include KP KQ M

/-- Every row of the table leads from `P` to `Q`. -/
theorem after_stands (c : Instr) (h : P s) : Q (s.after c) := by
  have hs := KP.settle M.advance h
  have hw : (settle s).work.advance = none := by rw [settle_work]; rfl
  have hshaped : ∀ name shape (run : List Byte → State → Response × State) args,
      (∀ xs (t : State), P t → P (run xs t).2) → Q (shapedCommand name shape run args s) :=
    fun name shape run args hrun => M.weaken _ (KP.shapedCommand M.advance name shape hrun args h)
  have hhost : ∀ name (run : State → Response × State), (∀ t : State, t.inReset = false → P t → P (run t).2) →
      Q (hostCommand name run s) := fun name run hrun => M.weaken _ (KP.hostCommand M.advance name hrun h)
  cases c with
  | setup args => exact hshaped _ _ _ _ fun xs t => KP.runSetup xs
  | join => exact hhost _ _ fun t hr => KP.runJoin hr
  | leave => exact hhost _ _ fun t _ => KP.runLeave
  | restart straps => exact hhost _ _ fun t hr => KP.runRestart straps hr
  | send args => exact hshaped _ _ _ _ fun xs t => KP.runSend xs
  | purge => exact hhost _ _ fun t _ => KP.runPurge
  | nextNotice => exact hhost _ _ fun t _ => KP.runNextNotice
  | status => exact hhost _ _ fun t _ => KP.runStatus
  | time => exact hhost _ _ fun t _ ht => by rwa [runTime_state]
  | setPoints mask levels => exact hshaped _ _ _ _ fun xs t => KP.runSetPoints _ _
  | getPoints => exact hhost _ _ fun t _ ht => by rwa [runGetPoints_state]
  | listCue args => exact hshaped _ _ _ _ fun xs t ht => by rwa [runListCue_state]
  | dropCue issuer serial => exact hshaped _ _ _ _ fun xs t => KP.runDropCue _ _
  | loadTrigger args => exact hshaped _ _ _ _ fun xs t => KP.runLoadTrigger xs
  | readCapture args => exact hshaped _ _ _ _ fun xs t => KP.runReadCapture _
  | peer args => exact hshaped _ _ _ _ fun xs t ht => by rwa [runPeer_state]
  | unknownCommand code => exact M.weaken _ (unknownCommand_stands KP M code h)
  | transactionBegin => exact M.weaken _ (transactionBegin_stands KP M h)
  | transactionCutShort bits => exact M.weaken _ (transactionCutShort_stands KP M bits h)
  | fullReset => exact M.weaken _ (KP.reset h)
  | resetRelease straps => exact M.weaken _ (resetRelease_stands KP M straps h)
  | tick => exact (tick_stands KP M h).1
  | slewedTick => exact (tick_stands KP M h).2
  | firing => exact firing_stands M KQ h
  | restore => exact restore_stands KP M h
  | ageOut => exact M.weaken _ (reader_stands KP h).1
  | holdLimit i => exact M.weaken _ ((reader_stands KP h).2.1 i)
  | gapEnd i => exact M.weaken _ ((reader_stands KP h).2.2 i)
  | beaconDueTime => exact M.weaken _ (KP.finishDue h)
  | referenceLost => exact dueRow_stands KP M h
  | holdoverLimit => exact dueRow_stands KP M h
  | firstListenExpiry => exact dueRow_stands KP M h
  | peerSilence id => exact dueRow_stands KP M h
  | triggerEdge input level => exact M.weaken _ (KP.onTriggerEdge input level hs)
  | offerHead => exact M.weaken _ (KP.offerHead (KP.finishWork M.advance h))
  | offerBeacon => exact M.weaken _ (KP.offerBeacon (KP.finishWork M.advance h))
  | startCondition own => exact M.weaken _ (KP.onStartCondition own hs)
  | arbitrationLost => exact M.weaken _ (KP.arbitrationLost h)
  | evaluationPoint => exact M.weaken _ (KP.finishSample h)
  | answerReady => exact answerReady_stands KP M KQ hw hs
  | endCondition => exact endCondition_stands KP M KQ hw hs
  | lineIdle => exact M.weaken _ (KP.onLineIdle hs)
  | paceFallInIdle => exact M.weaken _ (KP.onPaceFallInIdle hs)
  | stuckLow run => exact M.weaken _ (KP.onStuckLow run.wire run.risen hs)
  | stall => exact M.weaken _ (KP.onStall hs)
  | framing => exact M.weaken _ (KP.onFraming hs)
  | recoverEnd => exact M.weaken _ (KP.onRecoverEnd hs)
  | bitSample data => exact M.weaken _ (KP.onBitSample data hs)
  | paceFall => exact M.weaken _ (KP.onPaceFall hs)
  | halfPeriodEnd => exact M.weaken _ (KP.line _ _ (lineStep_halfPeriodOver _) hs)
  | transactionEnd => exact M.weaken _ (transactionEnd_stands KP M h)
  | idleCountReset wire => exact M.weaken _ (KP.onIdleCountReset wire hs)

/-- Every step leads from `P` to `Q`. -/
theorem step_stands {t : State} (hpending : ∀ (s : State) (l : List Instr), P s → P (s.withPending l)) (h : P s)
    (ht : step s = .next t) : Q t := by
  unfold step at ht
  split at ht
  · injection ht with ht
    exact ht ▸ M.weaken s h
  · rename_i c rest _
    rw [exec_eq_next_after] at ht
    injection ht with ht
    exact ht ▸ after_stands KP KQ M c (hpending s rest h)

end

end Sys2Proof.Machine
end

section
/-! SUPPORT. Invariants of one block, each a predicate that stands the walk (R69 to R81, R90, R124, R142, R162, R171). -/

namespace Sys2Proof.Machine

/-! ### The readers' work, where nothing is asked of the order of the table -/

section
variable {P : State → Prop} (K : StandsThroughUpdates P)
  (hclear : ∀ s : State, P s → P (s.withWork { s.work with advance := none }))
  (hfire : ∀ (s : State) (adv : Advance) (e : CueEntry) (rest : List CueEntry), s.cues.armed = e :: rest → P s →
    P ((s.withPoints (applyActions e.fireTime e.actions s.points)).withCues { s.cues with armed := tableAfter adv e rest }))
include K hfire

theorem takeDueItems_stands (adv : Advance) (n : Nat) (s : State) (h : P s) : P (takeDueItems adv n s) := by
  induction n generalizing s with
  | zero => exact h
  | succ n ih =>
    unfold takeDueItems
    cases hit : nextDueItem adv s with
    | none => exact h
    | some it =>
      refine ih _ ?_
      cases it with
      | entry e rest =>
        obtain ⟨hq, -, -⟩ := (nextDueItem_eq_entry_iff adv s e rest).1 hit
        exact K.notify _ (hfire s adv e rest hq h)
      | restores d => exact K.points s _ (fun ht => ht.withPoints (pointsStep_applyRestores s adv d)) h

include hclear

theorem finishAdvance_stands (s : State) (h : P s) : P (finishAdvance s) := by
  cases hadv : s.work.advance with
  | none => rwa [finishAdvance_of_none hadv]
  | some adv =>
    rw [finishAdvance_of_some hadv]
    exact K.advanceInputs adv (K.ageIssued adv (takeDueItems_stands K hfire adv _ _ (hclear s h)))

end

/-! ### The notice queue -/

theorem port_stands : StandsThroughUpdates (fun s => s.port.Safe) where
  fresh _ _ h _ _ := h.port
  order _ _ h := h
  pins _ _ _ h := h
  port _ _ hp h := hp h
  line _ _ _ h := h
  decoder _ _ h := h
  send _ _ _ h := h
  inputs _ _ _ h := h
  peers _ _ _ h := h
  work _ _ _ h := h
  clock _ _ _ h := h
  cues _ _ _ h := h
  points _ _ _ h := h
  station _ _ _ h := h
  release _ _ _ _ h := h

theorem port_moves : StandsThroughMoves (fun s => s.port.Safe) (fun s => s.port.Safe) where
  weaken _ h := h
  advance := finishAdvance_stands port_stands (fun _ h => h) (fun _ _ _ _ _ h => h)
  fire _ _ _ _ _ _ _ h := h
  tick _ _ h := h
  arm _ _ _ _ h := h
  adopt _ _ _ _ h := h

/-- Settles O4: no update of a block leads the host port out of its room. -/
theorem noticeRoomIsKept : Obligations.NoticeRoomIsKept :=
  fun _ _ h ht => step_stands port_stands port_stands port_moves (fun _ _ h => h) h ht

/-! ### The send unit -/

theorem send_stands : StandsThroughUpdates (fun s => s.send.Safe) where
  fresh _ _ h _ _ := h.send
  order _ _ h := h
  pins _ _ _ h := h
  port _ _ _ h := h
  line _ _ _ h := h
  decoder _ _ h := h
  send _ _ hu h := hu.safe h
  inputs _ _ _ h := h
  peers _ _ _ h := h
  work _ _ _ h := h
  clock _ _ _ h := h
  cues _ _ _ h := h
  points _ _ _ h := h
  station _ _ _ h := h
  release _ _ _ _ h := h

theorem send_moves : StandsThroughMoves (fun s => s.send.Safe) (fun s => s.send.Safe) where
  weaken _ h := h
  advance := finishAdvance_stands send_stands (fun _ h => h) (fun _ _ _ _ _ h => h)
  fire _ _ _ _ _ _ _ h := h
  tick _ _ h := h
  arm _ _ _ _ h := h
  adopt _ _ _ _ h := h

/-- Settles O5: what joins, leaves or returns to the queue keeps its bounds and its serials apart. -/
theorem sendUnitIsKept : Obligations.SendUnitIsKept :=
  fun _ _ h ht => step_stands send_stands send_stands send_moves (fun _ _ h => h) h ht

/-! ### The counts -/

theorem counts_stands : StandsThroughUpdates State.CountsSafe where
  fresh _ _ h _ _ := h.counts
  order _ _ h := h
  pins _ _ _ h := h
  port _ _ _ h := h
  line _ _ _ h := h
  decoder _ _ h := h
  send _ _ _ h := h
  inputs _ _ hi h := hi h
  peers _ _ hr h := hr h
  work _ _ _ h := h
  clock _ _ _ h := h
  cues _ _ _ h := h
  points _ _ _ h := h
  station _ _ _ h := h
  release _ _ _ _ h := h

theorem counts_moves : StandsThroughMoves State.CountsSafe State.CountsSafe where
  weaken _ h := h
  advance := finishAdvance_stands counts_stands (fun _ h => h) (fun _ _ _ _ _ h => h)
  fire _ _ _ _ _ _ _ h := h
  tick _ _ h := h
  arm _ _ _ _ h := h
  adopt _ _ _ _ h := h

/-- Settles O9. -/
theorem countsAreKept : Obligations.CountsAreKept :=
  fun _ _ h ht => step_stands counts_stands counts_stands counts_moves (fun _ _ h => h) h ht

/-! ### The use of the line -/

theorem line_stands : StandsThroughUpdates State.LineSafe where
  fresh _ _ h _ _ := h.line
  order _ _ h := h
  pins s x hx h := by
    obtain ⟨huse, hrole, hoff, hreset⟩ := h
    exact ⟨huse, hrole, hoff, fun hr => hreset (by rwa [State.inReset, State.withPins_pins, hx] at hr)⟩
  port _ _ _ h := h
  line _ _ hl h := h.withLine hl
  decoder _ _ h := h
  send _ _ hu h := h.withSend hu
  inputs _ _ _ h := h
  peers _ _ _ h := h
  work _ _ hw h := h.withWork hw
  clock _ _ _ h := h
  cues _ _ _ h := h
  points _ _ _ h := h
  station _ _ hx h := hx.line h
  release _ _ _ hx h := hx.line h

/-- What is in hand of a frame stays, or goes. -/
theorem State.LineSafe.withAdvance {s : State} (h : s.LineSafe) (a : Option Advance) (due : Bool) :
    (s.withWork { s.work with advance := a, due := due }).LineSafe := h

theorem line_moves : StandsThroughMoves State.LineSafe State.LineSafe where
  weaken _ h := h
  advance := finishAdvance_stands line_stands (fun _ h => h.withAdvance none _) (fun _ _ _ _ _ h => h)
  fire _ _ _ _ _ _ _ h := h
  tick _ _ h := h.withAdvance _ _
  arm _ _ _ _ h := h
  adopt _ _ _ _ h := h.withAdvance _ _

/-- Settles O6. -/
theorem lineIsUsedOnlyInActive : Obligations.LineIsUsedOnlyInActive :=
  fun _ _ h ht => step_stands line_stands line_stands line_moves (fun _ _ h => h) h ht

/-! ### The clock record -/

/-- R151 to R153: a full reset is in force as long as NRST is low. -/
theorem State.inReset_withPins {s : State} {x : Pins} (h : x.nrst = s.pins.nrst) : (s.withPins x).inReset = s.inReset := by
  rw [State.inReset, State.withPins_pins, h, State.inReset]

/-- The clock record and the use of the line, without which a clock could leave UNSYNCED while a full reset lasts. -/
def State.ClockAndLineSafe (s : State) : Prop := s.LineSafe ∧ s.ClockSafe

theorem clock_stands : StandsThroughUpdates State.ClockAndLineSafe where
  fresh _ _ h _ _ := ⟨h.line, h.clock⟩
  order _ _ h := h
  pins s x hx h := by
    obtain ⟨hl, hc⟩ := h
    refine ⟨line_stands.pins s x hx hl, ?_⟩
    rw [State.clockSafe_iff] at hc ⊢
    rw [State.inReset_withPins hx]
    exact hc
  port _ _ _ h := h
  line _ _ hl h := ⟨h.1.withLine hl, h.2⟩
  decoder _ _ h := h
  send _ _ hu h := ⟨h.1.withSend hu, h.2⟩
  inputs _ _ _ h := h
  peers _ _ _ h := h
  work _ _ hw h := ⟨h.1.withWork hw, h.2⟩
  clock _ _ hc h := ⟨h.1, hc.safe h.1 h.2⟩
  cues _ _ _ h := h
  points _ _ _ h := h
  station _ _ hx h := ⟨hx.line h.1, hx.clock h.1 h.2⟩
  release _ _ _ hx h := ⟨hx.line h.1, hx.clock h.1 h.2⟩

theorem clock_moves : StandsThroughMoves State.ClockAndLineSafe State.ClockAndLineSafe where
  weaken _ h := h
  advance := finishAdvance_stands clock_stands (fun _ h => h) (fun _ _ _ _ _ h => h)
  fire _ _ _ _ _ _ _ h := h
  tick s _ h := by
    obtain ⟨hl, hc⟩ := h
    refine ⟨hl.withAdvance _ _, ?_⟩
    obtain ⟨hs, hcode, hreset⟩ := (State.clockSafe_iff s).1 hc
    exact (State.clockSafe_iff _).2 ⟨hs.ticked, hcode, fun hr => (Clock.ticked_state _).trans (hreset hr)⟩
  arm _ _ _ _ h := h
  adopt s b _ ho h := by
    obtain ⟨hl, hc⟩ := h
    refine ⟨hl.withAdvance _ _, ?_⟩
    obtain ⟨hs, hcode, -⟩ := (State.clockSafe_iff s).1 hc
    exact (State.clockSafe_iff _).2 ⟨hs.adopted b, hcode, fun hr => by
      rw [show ((s.withClock (s.clock.adopted b)).withWork _).inReset = s.inReset from rfl, hl.notInReset ho] at hr; cases hr⟩

/-- Settles O8. -/
theorem clockRecordIsKept : Obligations.ClockRecordIsKept :=
  fun _ _ hl h ht => (step_stands clock_stands clock_stands clock_moves (fun _ _ h => h) ⟨hl, h⟩ ht).2

/-! ### The reset state -/

/-- Settles O10. -/
theorem resetMeetsInvariants : Obligations.ResetMeetsInvariants :=
  have h : State.reset.MeetsAll := meetsAll_fresh (pins := State.reset.pins) (points := Points.reset) rfl (fun _ => rfl) rfl
  ⟨h.port, h.send, h.line, h.table, h.order, h.span, h.clock, h.counts⟩

end Sys2Proof.Machine
end

section
/-! SUPPORT. The firing unit's work for one advance (R51 to R57): each due item taken leaves less to do, so that the whole of it is done; an
entry put back is not reached again, and the table stays in order. -/

namespace Sys2Proof.Machine

/-! ### Distances -/

theorem distance_lt (f base : Time) : distance f base < 2 ^ 32 := (f - base).isLt

theorem distance_add (f base : Time) (n : Nat) :
    distance (f + BitVec.ofNat 32 n) base = (distance f base + n) % 2 ^ 32 := by
  unfold distance
  rw [show f + BitVec.ofNat 32 n - base = (f - base) + BitVec.ofNat 32 n by ring, BitVec.toNat_add, BitVec.toNat_ofNat]
  omega

/-- The distance that an advance still has to go from a time it reaches. -/
theorem Advance.distance_target {adv : Advance} {f : Time} (h : distance f adv.base ≤ adv.size) (hs : adv.size < 2 ^ 31) :
    distance adv.target f = adv.size - distance f adv.base := by
  unfold distance Advance.target at *
  bv_omega

/-- The distance left, once the advance is made, of a time beyond it. -/
theorem Advance.distance_from_target {adv : Advance} {f : Time} (h : adv.size ≤ distance f adv.base) :
    distance f adv.target = distance f adv.base - adv.size := by
  unfold distance Advance.target at *
  bv_omega

/-! ### Entries put back (R55, R56) -/

/-- R55: an entry put back is due after the advance, by less than two of the longest periods. -/
theorem putBack_distance {adv : Advance} {e e' : CueEntry} (h : (afterFiring adv.target e).putBack = some e') (he : e.Whole)
    (hle : distance e.fireTime adv.base ≤ adv.size) (hs : adv.size < 2 ^ 31) :
    adv.size < distance e'.fireTime adv.base ∧ distance e'.fireTime adv.base < adv.size + 2 ^ 16 := by
  obtain ⟨-, -, -, hrep⟩ := he
  unfold afterFiring at h
  cases hr : e.rep with
  | none => rw [hr] at h; cases h
  | some r =>
    rw [hr] at h hrep
    dsimp only at h
    obtain ⟨hperiod, -⟩ := hrep r rfl
    have hpos : 0 < r.period.toNat := by
      have : r.period.toNat ≠ 0 := fun h0 => hperiod (BitVec.eq_of_toNat_eq h0)
      omega
    have hlt : r.period.toNat < 2 ^ 16 := r.period.isLt
    split at h
    · injection h with h
      subst h
      dsimp only
      rw [distance_add, Advance.distance_target hle hs]
      have hdm := Nat.div_add_mod (adv.size - distance e.fireTime adv.base) r.period.toNat
      have hmod := Nat.mod_lt (adv.size - distance e.fireTime adv.base) hpos
      rw [Nat.mul_comm] at hdm
      have hmul : ((adv.size - distance e.fireTime adv.base) / r.period.toNat + 1) * r.period.toNat =
          (adv.size - distance e.fireTime adv.base) / r.period.toNat * r.period.toNat + r.period.toNat := Nat.succ_mul _ _
      generalize ((adv.size - distance e.fireTime adv.base) / r.period.toNat + 1) * r.period.toNat = m at hmul ⊢
      omega
    · cases h

/-! ### What is left to do -/

/-- What an advance leaves to do: a due entry counts for itself and for the restores that its actions may record. -/
def dueWork (adv : Advance) (s : State) : Nat :=
  ((s.cues.armed.filter fun e => adv.reaches e.fireTime).map fun e => 1 + e.actions.length).sum + s.points.pulses.length

theorem dueWork_le_dueBound (adv : Advance) (s : State) : dueWork adv s ≤ dueBound s := by
  have hle : ∀ es : List CueEntry, ((es.filter fun e => adv.reaches e.fireTime).map fun e => 1 + e.actions.length).sum ≤
      es.length + (es.map fun e => e.actions.length).sum := by
    intro es
    induction es with
    | nil => exact Nat.zero_le _
    | cons e es ih =>
      rw [List.filter_cons]
      split
      · simp only [List.map_cons, List.sum_cons, List.length_cons] at ih ⊢
        omega
      · simp only [List.map_cons, List.sum_cons, List.length_cons] at ih ⊢
        omega
  have h := hle s.cues.armed
  unfold dueWork dueBound
  omega

theorem length_recordRestore_le (r : Restore) (ps : List Restore) : (recordRestore r ps).length ≤ ps.length + 1 := by
  rw [recordRestore, List.length_append, List.length_singleton]
  exact Nat.succ_le_succ (cancelRestore_sublist _ _).length_le

/-- R53, R62: an action records one restore at most. -/
theorem length_apply_pulses_le (p : Points) (fire : Time) (a : Action) : (p.apply fire a).pulses.length ≤ p.pulses.length + 1 := by
  unfold Points.apply
  split
  · exact ((cancelRestore_sublist _ _).length_le).trans (Nat.le_succ _)
  · exact ((cancelRestore_sublist _ _).length_le).trans (Nat.le_succ _)
  · exact ((cancelRestore_sublist _ _).length_le).trans (Nat.le_succ _)
  · exact length_recordRestore_le _ _
  · exact length_recordRestore_le _ _

theorem length_applyActions_pulses_le (fire : Time) (as : List Action) (p : Points) :
    (applyActions fire as p).pulses.length ≤ p.pulses.length + as.length := by
  induction as generalizing p with
  | nil => exact Nat.le_refl _
  | cons a as ih =>
    have hstep := length_apply_pulses_le p fire a
    unfold applyActions
    cases p.owner a.point with
    | line =>
      have := ih (p.apply fire a)
      simp only [List.length_cons]
      omega
    | host =>
      have := ih p
      simp only [List.length_cons]
      omega

/-- The firing unit meets an advance with a sound table in the order of the advance's base. -/
structure FiringReady (adv : Advance) (s : State) : Prop where
  small : adv.size < 2 ^ 31
  table : s.TableSafe
  order : InTableOrder adv.base s.cues.armed

section
variable {adv : Advance} {s : State}

/-- R51: with the table in order, an advance that does not reach the head reaches no entry. -/
theorem FiringReady.beyond_of_head (h : FiringReady adv s)
    (hhead : ∀ e rest, s.cues.armed = e :: rest → adv.size < distance e.fireTime adv.base) :
    ∀ e ∈ s.cues.armed, adv.size < distance e.fireTime adv.base := by
  have horder := h.order
  cases hq : s.cues.armed with
  | nil => intro e he; cases he
  | cons f rest =>
    rw [hq] at horder
    obtain ⟨hf, -⟩ := List.pairwise_cons.1 horder
    have hlt := hhead f rest hq
    intro e he
    rcases List.mem_cons.1 he with rfl | he
    · exact hlt
    · have := (aheadOf_iff _ _ _).1 (hf e he)
      omega

theorem FiringReady.entry_whole (h : FiringReady adv s) {e : CueEntry} (he : e ∈ s.cues.armed) : e.Whole := by
  obtain ⟨-, -, hwhole, -⟩ := h.table
  exact hwhole e (List.mem_append_right _ he)

theorem FiringReady.restores (h : FiringReady adv s) (d : Nat) : FiringReady adv (takeDueItem adv (.restores d) s) :=
  ⟨h.small, h.table.withPoints (pointsStep_applyRestores s adv d), h.order⟩

theorem FiringReady.entry (h : FiringReady adv s) {e : CueEntry} {rest : List CueEntry} (hq : s.cues.armed = e :: rest) :
    FiringReady adv (takeDueItem adv (.entry e rest) s) := by
  have htable := tableSafe_fire adv hq h.table
  have horder := h.order
  rw [hq] at horder
  obtain ⟨-, hrest⟩ := List.pairwise_cons.1 horder
  refine ⟨h.small, htable, ?_⟩
  change InTableOrder adv.base (tableAfter adv e rest)
  unfold tableAfter
  split
  · rename_i e' hput
    obtain ⟨hkey, -⟩ := putBack_whole hput (h.entry_whole (by rw [hq]; exact List.mem_cons_self))
    obtain ⟨-, hkeys, -⟩ := h.table
    rw [CueTable.keys, hq] at hkeys
    refine InTableOrder.insertEntry hrest e' fun x hx hk => ?_
    have hnodup := ((List.sublist_append_right _ _).map _).nodup hkeys
    exact (List.nodup_cons.1 hnodup).1 (List.mem_map.2 ⟨x, hx, hk.trans hkey⟩)
  · exact hrest

/-- R52: each due item taken leaves less to do. -/
theorem FiringReady.takeDueItem (h : FiringReady adv s) {it : DueItem} (hit : nextDueItem adv s = some it) :
    FiringReady adv (takeDueItem adv it s) ∧ dueWork adv (takeDueItem adv it s) < dueWork adv s := by
  cases it with
  | entry e rest =>
    obtain ⟨hq, hle, -⟩ := (nextDueItem_eq_entry_iff adv s e rest).1 hit
    refine ⟨h.entry hq, ?_⟩
    have hpulses := length_applyActions_pulses_le e.fireTime e.actions s.points
    have htable : ((tableAfter adv e rest).filter fun e => adv.reaches e.fireTime).Perm
        (rest.filter fun e => adv.reaches e.fireTime) := by
      unfold tableAfter
      split
      · rename_i e' hput
        obtain ⟨hlt, -⟩ := putBack_distance hput (h.entry_whole (by rw [hq]; exact List.mem_cons_self)) hle h.small
        have hn : adv.reaches e'.fireTime = false := decide_eq_false (Nat.not_le_of_lt hlt)
        refine ((insertEntry_perm _ _ _).filter _).trans ?_
        rw [List.filter_cons_of_neg (by simp [hn])]
      · exact .refl _
    have hsum := (htable.map fun e => 1 + e.actions.length).sum_eq
    unfold dueWork
    rw [hq, List.filter_cons_of_pos (p := fun e : CueEntry => adv.reaches e.fireTime) ((adv.reaches_iff _).2 hle), List.map_cons, List.sum_cons]
    change ((List.filter (fun e => adv.reaches e.fireTime) (tableAfter adv e rest)).map _).sum +
      (applyActions e.fireTime e.actions s.points).pulses.length < _
    rw [hsum]
    omega
  | restores d =>
    obtain ⟨-, ⟨r, hr, hd⟩, -, -⟩ := (nextDueItem_eq_restores_iff adv s d).1 hit
    refine ⟨h.restores d, Nat.add_lt_add_left ?_ _⟩
    exact List.length_filter_lt_length_iff_exists.2 ⟨r, hr, by simp [hd]⟩

theorem FiringReady.takeDueItems (h : FiringReady adv s) (n : Nat) : FiringReady adv (takeDueItems adv n s) := by
  induction n generalizing s with
  | zero => exact h
  | succ n ih =>
    unfold Machine.takeDueItems
    cases hit : nextDueItem adv s with
    | none => exact h
    | some it => exact ih (h.takeDueItem hit).1

/-- R52: as many turns as there is work to do are enough. -/
theorem FiringReady.nextDueItem_takeDueItems (h : FiringReady adv s) {n : Nat} (hn : dueWork adv s ≤ n) :
    nextDueItem adv (Machine.takeDueItems adv n s) = none := by
  induction n generalizing s with
  | zero =>
    cases hit : nextDueItem adv s with
    | none => exact hit
    | some it => exact absurd (h.takeDueItem hit).2 (by omega)
  | succ n ih =>
    unfold Machine.takeDueItems
    cases hit : nextDueItem adv s with
    | none => exact hit
    | some it =>
      obtain ⟨hready, hlt⟩ := h.takeDueItem hit
      exact ih hready (by omega)

/-- With the work done, further turns change nothing. -/
theorem takeDueItems_of_none (n : Nat) (h : nextDueItem adv s = none) : Machine.takeDueItems adv n s = s := by
  cases n with
  | zero => rfl
  | succ n => unfold Machine.takeDueItems; rw [h]

/-- Any two numbers of turns that are enough give the same. -/
theorem FiringReady.takeDueItems_eq (h : FiringReady adv s) {n m : Nat} (hn : dueWork adv s ≤ n) (hm : dueWork adv s ≤ m) :
    Machine.takeDueItems adv n s = Machine.takeDueItems adv m s := by
  induction n generalizing s m with
  | zero =>
    have hnone : nextDueItem adv s = none := h.nextDueItem_takeDueItems hn
    rw [takeDueItems_of_none m hnone, takeDueItems_of_none 0 hnone]
  | succ n ih =>
    cases hit : nextDueItem adv s with
    | none => rw [takeDueItems_of_none _ hit, takeDueItems_of_none _ hit]
    | some it =>
      obtain ⟨hready, hlt⟩ := h.takeDueItem hit
      cases m with
      | zero => omega
      | succ m =>
        rw [Machine.takeDueItems, Machine.takeDueItems, hit]
        exact ih hready (by omega) (by omega)

/-- R51, R52: after the firing unit's work for an advance nothing is left that the advance reaches. -/
theorem FiringReady.fireAdvance (h : FiringReady adv s) :
    FiringReady adv (fireAdvance adv s) ∧ (∀ e ∈ (fireAdvance adv s).cues.armed, adv.size < distance e.fireTime adv.base) ∧
      ∀ r ∈ (fireAdvance adv s).points.pulses, adv.size < distance r.time adv.base := by
  have hready := h.takeDueItems (dueBound s)
  obtain ⟨hhead, hpulses⟩ := (nextDueItem_eq_none_iff _ _).1 (h.nextDueItem_takeDueItems (dueWork_le_dueBound adv s))
  exact ⟨hready, hready.beyond_of_head hhead, hpulses⟩

/-- Every armed fire time lies less than 2^31 beyond the advance. -/
def ArmedInSpan (adv : Advance) (s : State) : Prop := ∀ e ∈ s.cues.armed, distance e.fireTime adv.base < adv.size + 2 ^ 31

theorem ArmedInSpan.takeDueItems (h : ArmedInSpan adv s) (hready : FiringReady adv s) (n : Nat) :
    ArmedInSpan adv (Machine.takeDueItems adv n s) := by
  induction n generalizing s with
  | zero => exact h
  | succ n ih =>
    unfold Machine.takeDueItems
    cases hit : nextDueItem adv s with
    | none => exact h
    | some it =>
      refine ih ?_ (hready.takeDueItem hit).1
      cases it with
      | restores d => exact h
      | entry e rest =>
        obtain ⟨hq, hle, -⟩ := (nextDueItem_eq_entry_iff adv s e rest).1 hit
        have hrest : ∀ x ∈ rest, distance x.fireTime adv.base < adv.size + 2 ^ 31 :=
          fun x hx => h x (by rw [hq]; exact List.mem_cons_of_mem _ hx)
        intro x hx
        change x ∈ tableAfter adv e rest at hx
        unfold tableAfter at hx
        split at hx
        · rename_i e' hput
          obtain ⟨-, hlt⟩ := putBack_distance hput (hready.entry_whole (by rw [hq]; exact List.mem_cons_self)) hle hready.small
          rcases (mem_insertEntry _ _ _ _).1 hx with rfl | hx
          · omega
          · exact hrest x hx
        · exact hrest x hx

end

end Sys2Proof.Machine
end

section
/-! SUPPORT. The cue table and the pulse list (R1 to R14, R61 to R67): what every step keeps of them, and the order of the table, whatever
a step does to line time. -/

namespace Sys2Proof.Machine

/-- Two invariants that stand the updates stand them together. -/
theorem StandsThroughUpdates.and {A B : State → Prop} (KA : StandsThroughUpdates A) (KB : StandsThroughUpdates B) :
    StandsThroughUpdates (fun s => A s ∧ B s) where
  fresh s t ht hp h := ⟨KA.fresh s t ht hp h.1, KB.fresh s t ht hp h.2⟩
  order s n h := ⟨KA.order s n h.1, KB.order s n h.2⟩
  pins s x hx h := ⟨KA.pins s x hx h.1, KB.pins s x hx h.2⟩
  port s p hp h := ⟨KA.port s p hp h.1, KB.port s p hp h.2⟩
  line s l hl h := ⟨KA.line s l hl h.1, KB.line s l hl h.2⟩
  decoder s d h := ⟨KA.decoder s d h.1, KB.decoder s d h.2⟩
  send s u hu h := ⟨KA.send s u hu h.1, KB.send s u hu h.2⟩
  inputs s i hi h := ⟨KA.inputs s i hi h.1, KB.inputs s i hi h.2⟩
  peers s r hr h := ⟨KA.peers s r hr h.1, KB.peers s r hr h.2⟩
  work s w hw h := ⟨KA.work s w hw h.1, KB.work s w hw h.2⟩
  clock s c hc h := ⟨KA.clock s c hc h.1, KB.clock s c hc h.2⟩
  cues s c hc h := ⟨KA.cues s c hc h.1, KB.cues s c hc h.2⟩
  points s p hp h := ⟨KA.points s p hp h.1, KB.points s p hp h.2⟩
  station s x hx h := ⟨KA.station s x hx h.1, KB.station s x hx h.2⟩
  release s x y hx h := ⟨KA.release s x y hx h.1, KB.release s x y hx h.2⟩

/-! ### The table and the use of the line -/

/-- The table's bounds and the use of the line, without which restores could be pending where a reset is released. -/
def State.TableAndLineSafe (s : State) : Prop := s.LineSafe ∧ s.TableSafe

theorem table_stands : StandsThroughUpdates State.TableAndLineSafe where
  fresh _ _ h _ _ := ⟨h.line, h.table⟩
  order _ _ h := h
  pins s x hx h := ⟨line_stands.pins s x hx h.1, h.2⟩
  port _ _ _ h := h
  line _ _ hl h := ⟨h.1.withLine hl, h.2⟩
  decoder _ _ h := h
  send _ _ hu h := ⟨h.1.withSend hu, h.2⟩
  inputs _ _ _ h := h
  peers _ _ _ h := h
  work _ _ hw h := ⟨h.1.withWork hw, h.2⟩
  clock _ _ _ h := h
  cues _ _ hc h := ⟨h.1, hc.table h.2⟩
  points _ _ hp h := ⟨h.1, hp h.2⟩
  station _ _ hx h := ⟨hx.line h.1, hx.table h.1 h.2⟩
  release _ _ _ hx h := ⟨hx.line h.1, hx.table h.1 h.2⟩

theorem table_moves : StandsThroughMoves State.TableAndLineSafe State.TableAndLineSafe where
  weaken _ h := h
  advance := finishAdvance_stands table_stands (fun _ h => h) (fun _ adv _ _ hq h => ⟨h.1, tableSafe_fire adv hq h.2⟩)
  fire _ adv _ _ _ hq _ h := ⟨h.1, tableSafe_fire adv hq h.2⟩
  tick _ _ h := ⟨h.1.withAdvance _ _, h.2⟩
  arm _ _ _ he h := ⟨h.1, tableSafe_arm _ he h.2⟩
  adopt _ _ _ _ h := ⟨h.1.withAdvance _ _, h.2⟩

/-! ### The order (R10, R12, R67) -/

/-- The line time that the order is measured at is told by the advance in hand and the line time. -/
theorem State.tableBase_congr {s t : State} (hw : t.work.advance = s.work.advance) (hc : t.clock.lineTime = s.clock.lineTime) :
    t.tableBase = s.tableBase := by
  unfold State.tableBase
  rw [hw, hc]

theorem State.tableBase_of_none {s : State} (h : s.work.advance = none) : s.tableBase = s.clock.lineTime := by
  unfold State.tableBase
  rw [h]

theorem State.tableBase_of_some {s : State} {adv : Advance} (h : s.work.advance = some adv) : s.tableBase = adv.base := by
  unfold State.tableBase
  rw [h]

theorem State.orderSafe_of_base {t : State} {base : Time} (hb : t.tableBase = base) (h : InTableOrder base t.cues.armed)
    (ha : ∀ adv ∈ t.work.advance, adv.target = t.clock.lineTime ∧ adv.size < 2 ^ 31) : t.OrderSafe := ⟨hb ▸ h, ha⟩

theorem State.orderSafe_congr {s t : State} (hq : t.cues.armed = s.cues.armed) (hw : t.work.advance = s.work.advance)
    (hc : t.clock.lineTime = s.clock.lineTime) (h : s.OrderSafe) : t.OrderSafe := by
  unfold State.OrderSafe at h ⊢
  rwa [State.tableBase_congr hw hc, hq, hw, hc]

theorem State.fireTimesInSpan_congr {s t : State} (hq : t.cues.armed = s.cues.armed) (hw : t.work.advance = s.work.advance)
    (hc : t.clock.lineTime = s.clock.lineTime) (h : s.FireTimesInSpan) : t.FireTimesInSpan := by
  unfold State.FireTimesInSpan at h ⊢
  rwa [State.tableBase_congr hw hc, hq]

theorem order_stands : StandsThroughUpdates State.OrderSafe where
  fresh _ _ h _ _ := h.order
  order _ _ h := h
  pins _ _ _ h := h
  port _ _ _ h := h
  line _ _ _ h := h
  decoder _ _ h := h
  send _ _ _ h := h
  inputs _ _ _ h := h
  peers _ _ _ h := h
  work s w hw h := State.orderSafe_congr (s := s) (t := s.withWork w) rfl hw.advance rfl h
  clock s c hc h := State.orderSafe_congr (s := s) (t := s.withClock c) rfl rfl hc.lineTime h
  cues _ _ hc h := ⟨hc.order _ h.1, h.2⟩
  points _ _ _ h := h
  station _ _ _ h := h
  release _ _ _ _ h := h

theorem span_stands : StandsThroughUpdates State.FireTimesInSpan where
  fresh _ _ h _ _ := h.span
  order _ _ h := h
  pins _ _ _ h := h
  port _ _ _ h := h
  line _ _ _ h := h
  decoder _ _ h := h
  send _ _ _ h := h
  inputs _ _ _ h := h
  peers _ _ _ h := h
  work s w hw h := State.fireTimesInSpan_congr (s := s) (t := s.withWork w) rfl hw.advance rfl h
  clock s c hc h := State.fireTimesInSpan_congr (s := s) (t := s.withClock c) rfl rfl hc.lineTime h
  cues s c hc h e he := by
    obtain ⟨f, hf, ht⟩ := hc.times e he
    have hspan := h f hf
    rwa [← ht] at hspan
  points _ _ _ h := h
  station _ _ _ h := h
  release _ _ _ _ h := h

/-- The order does not depend on the base, where no distance wraps between the two. -/
theorem InTableOrder.rebase {base base' : Time} {es : List CueEntry} (h : InTableOrder base es) (c : Int)
    (hd : ∀ e ∈ es, (distance e.fireTime base' : Int) = distance e.fireTime base + c) : InTableOrder base' es := by
  refine h.imp_of_mem fun {x y} hx hy hxy => ?_
  have hdx := hd x hx
  have hdy := hd y hy
  rw [aheadOf_iff] at hxy ⊢
  rcases hxy with hlt | ⟨heq, hkey⟩
  · exact .inl (by omega)
  · exact .inr ⟨by omega, hkey⟩

/-- R52: the readers of an advance meet the table as the firing unit wants it. -/
theorem State.OrderSafe.firingReady {s : State} {adv : Advance} (h : s.OrderSafe) (ht : s.TableSafe)
    (hadv : s.work.advance = some adv) : FiringReady adv (s.withWork { s.work with advance := none }) := by
  obtain ⟨horder, hsize⟩ := h
  rw [State.tableBase_of_some hadv] at horder
  exact ⟨(hsize adv hadv).2, ht, horder⟩

/-- The table that the readers of an advance leave is the one the firing unit leaves. -/
theorem finishAdvance_cues {s : State} {adv : Advance} (h : s.work.advance = some adv) :
    (finishAdvance s).cues = (fireAdvance adv (s.withWork { s.work with advance := none })).cues ∧
      (finishAdvance s).points = (fireAdvance adv (s.withWork { s.work with advance := none })).points := by
  rw [finishAdvance_of_some h]
  exact ⟨rfl, rfl⟩

/-- R12, R52, R67: with the readers' work done, the table is in the order of the new line time, and still in span. -/
theorem finishAdvance_order {s : State} (ht : s.TableSafe) (ho : s.OrderSafe) (hspan : s.FireTimesInSpan) :
    (finishAdvance s).OrderSafe ∧ (finishAdvance s).FireTimesInSpan := by
  cases hadv : s.work.advance with
  | none => rw [finishAdvance_of_none hadv]; exact ⟨ho, hspan⟩
  | some adv =>
    have hready := ho.firingReady ht hadv
    have htarget : adv.target = s.clock.lineTime := (ho.2 adv hadv).1
    obtain ⟨⟨-, -, horder⟩, hbeyond, -⟩ := hready.fireAdvance
    have harmed : ArmedInSpan adv (s.withWork { s.work with advance := none }) := by
      intro e he
      have hlt := hspan e he
      rw [State.tableBase_of_some hadv] at hlt
      omega
    have hsoon := harmed.takeDueItems hready (dueBound (s.withWork { s.work with advance := none }))
    obtain ⟨hcues, -⟩ := finishAdvance_cues hadv
    have hnone : (finishAdvance s).work.advance = none := by rw [finishAdvance_work]
    have hbase : (finishAdvance s).tableBase = adv.target := by
      rw [State.tableBase_of_none hnone, (touches_finishAdvance s).clock (by simp), htarget]
    have hdist : ∀ e ∈ (finishAdvance s).cues.armed,
        distance e.fireTime adv.target = distance e.fireTime adv.base - adv.size ∧ adv.size < distance e.fireTime adv.base ∧
          distance e.fireTime adv.base < adv.size + 2 ^ 31 := by
      intro e he
      rw [hcues] at he
      have hlt := hbeyond e he
      exact ⟨Advance.distance_from_target hlt.le, hlt, hsoon e he⟩
    refine ⟨⟨?_, fun a ha => by rw [hnone] at ha; cases ha⟩, fun e he => ?_⟩
    · rw [hbase]
      refine InTableOrder.rebase (base := adv.base) (by rw [hcues]; exact horder) (-adv.size) fun e he => ?_
      have := hdist e he
      omega
    · rw [hbase]
      have := hdist e he
      omega

/-- R70, R74: line time after an adoption. -/
theorem Clock.adopted_lineTime (c : Clock) (b : BeaconRecord) : (c.adopted b).lineTime =
    if stepsClock c.state (offsetOf c b) then c.lineTime + BitVec.ofInt 32 (offsetOf c b) else c.lineTime := by
  unfold Clock.adopted
  dsimp only
  split <;> rfl

/-- R74: an offset is a signed number of 32 bits. -/
theorem offsetOf_range (c : Clock) (b : BeaconRecord) : -2 ^ 31 ≤ offsetOf c b ∧ offsetOf c b < 2 ^ 31 := by
  unfold offsetOf signed
  exact ⟨BitVec.le_toInt _, BitVec.toInt_lt⟩

/-- R12, R78: a step forward is handed on with its base, and a step back moves every fire time alike. -/
theorem orderSafe_adopted {s : State} (b : BeaconRecord) (hw : s.work.advance = none) (ho : s.OrderSafe) (hspan : s.FireTimesInSpan) :
    ((s.withClock (s.clock.adopted b)).withWork { s.work with advance := steppedAdvance s.clock b }).OrderSafe := by
  have horder := ho.1
  unfold State.FireTimesInSpan at hspan
  rw [State.tableBase_of_none hw] at horder hspan
  obtain ⟨hlow, hhigh⟩ := offsetOf_range s.clock b
  have htime := s.clock.adopted_lineTime b
  unfold State.OrderSafe State.tableBase
  simp only [State.withWork_work, State.withWork_clock, State.withWork_cues, State.withClock_clock, State.withClock_cues]
  unfold steppedAdvance
  by_cases hstep : stepsClock s.clock.state (offsetOf s.clock b) = true ∧ 0 < offsetOf s.clock b
  · rw [if_pos hstep]
    rw [if_pos hstep.1] at htime
    refine ⟨horder, fun a ha => ?_⟩
    cases ha
    refine ⟨?_, by change (offsetOf s.clock b).toNat < _; omega⟩
    rw [htime]
    unfold Advance.target
    dsimp only
    obtain ⟨n, hn⟩ := Int.eq_ofNat_of_zero_le hstep.2.le
    rw [hn, Int.toNat_natCast, BitVec.ofInt_natCast]
  · rw [if_neg hstep]
    refine ⟨?_, fun a ha => nomatch ha⟩
    dsimp only
    rw [htime]
    split
    · rename_i hs
      have hback : offsetOf s.clock b ≤ 0 := Int.not_lt.1 fun h => hstep ⟨hs, h⟩
      refine InTableOrder.rebase horder (-offsetOf s.clock b) fun e he => ?_
      have hlt := hspan e he
      unfold distance at hlt ⊢
      generalize offsetOf s.clock b = o at hlow hback ⊢
      obtain ⟨n, rfl⟩ : ∃ n : Nat, o = -n := ⟨o.natAbs, by omega⟩
      have hn : n ≤ 2 ^ 31 := by omega
      have hadd : e.fireTime - (s.clock.lineTime + BitVec.ofInt 32 (-n)) = (e.fireTime - s.clock.lineTime) + BitVec.ofNat 32 n := by
        rw [BitVec.ofInt_neg, BitVec.ofInt_natCast]
        ring
      rw [hadd, BitVec.toNat_add, BitVec.toNat_ofNat]
      omega
    · exact horder

/-- The table and its order, while every armed fire time is in span. -/
def State.InOrderAndSpan (s : State) : Prop := (s.TableAndLineSafe ∧ s.OrderSafe) ∧ s.FireTimesInSpan

/-- The table and its order. -/
def State.InOrder (s : State) : Prop := s.TableAndLineSafe ∧ s.OrderSafe

theorem inOrder_stands : StandsThroughUpdates State.InOrder := table_stands.and order_stands

theorem inOrderAndSpan_stands : StandsThroughUpdates State.InOrderAndSpan := inOrder_stands.and span_stands

theorem inOrder_moves : StandsThroughMoves State.InOrderAndSpan State.InOrder where
  weaken _ h := h.1
  advance s h := by
    obtain ⟨⟨htable, horder⟩, hspan⟩ := h
    obtain ⟨horder', hspan'⟩ := finishAdvance_order htable.2 horder hspan
    exact ⟨⟨table_moves.advance s htable, horder'⟩, hspan'⟩
  fire s adv e rest hadv hq hreach h := by
    obtain ⟨⟨htable, horder⟩, -⟩ := h
    have hready := (horder.firingReady htable.2 hadv).entry (e := e) (rest := rest) hq
    exact ⟨table_moves.fire s adv e rest hadv hq hreach htable,
      State.orderSafe_of_base (State.tableBase_of_some hadv) hready.order horder.2⟩
  tick s hw h := by
    obtain ⟨⟨htable, horder⟩, -⟩ := h
    refine ⟨table_moves.tick s hw htable, ?_⟩
    have hin := horder.1
    rw [State.tableBase_of_none (by rw [hw]; rfl)] at hin
    have htime : (crystalTick s).clock.lineTime = s.clock.lineTime + BitVec.ofNat 32 s.clock.tickSize := rfl
    have hadv : (crystalTick s).work.advance =
        if s.clock.tickSize = 0 then none else some ⟨s.clock.lineTime, s.clock.tickSize⟩ := rfl
    have hle := s.clock.tickSize_le
    split at hadv
    · rename_i hzero
      have hstays : (crystalTick s).clock.lineTime = s.clock.lineTime := by simp [htime, hzero]
      exact State.orderSafe_of_base ((State.tableBase_of_none hadv).trans hstays) hin (fun a ha => by rw [hadv] at ha; cases ha)
    · refine State.orderSafe_of_base (State.tableBase_of_some hadv) hin fun a ha => ?_
      rw [hadv] at ha
      cases ha
      exact ⟨rfl, by change s.clock.tickSize < _; omega⟩
  arm s e hw he h := by
    obtain ⟨⟨htable, horder⟩, -⟩ := h
    have hin := horder.1
    rw [State.tableBase_of_none hw] at hin
    exact ⟨table_moves.arm s e hw he htable, State.orderSafe_of_base (State.tableBase_of_none hw)
      (InTableOrder.insertEntry hin e (htable.2.provisional_key he)) horder.2⟩
  adopt s b hw ho h := by
    obtain ⟨⟨htable, horder⟩, hspan⟩ := h
    exact ⟨table_moves.adopt s b hw ho htable, orderSafe_adopted b hw horder hspan⟩

/-- Settles O7: the table's bounds stand every update; its order is measured again only where no distance wraps. -/
theorem cueTableIsKept : Obligations.CueTableIsKept := by
  refine ⟨fun s t hl ht hstep => ?_, fun s t hl ht ho hspan hstep => ?_⟩
  · exact (step_stands table_stands table_stands table_moves (fun _ _ h => h) ⟨hl, ht⟩ hstep).2
  · exact (step_stands inOrderAndSpan_stands inOrder_stands inOrder_moves (fun _ _ h => h) ⟨⟨⟨hl, ht⟩, ho⟩, hspan⟩ hstep).2

/-! ### The queue of commands -/

theorem pending_stands (l : List Instr) : StandsThroughUpdates (fun s => s.pending = l) where
  fresh _ _ _ hp h := hp.trans h
  order _ _ h := h
  pins _ _ _ h := h
  port _ _ _ h := h
  line _ _ _ h := h
  decoder _ _ h := h
  send _ _ _ h := h
  inputs _ _ _ h := h
  peers _ _ _ h := h
  work _ _ _ h := h
  clock _ _ _ h := h
  cues _ _ _ h := h
  points _ _ _ h := h
  station _ _ _ h := h
  release _ _ _ _ h := h

theorem pending_moves (l : List Instr) : StandsThroughMoves (fun s => s.pending = l) (fun s => s.pending = l) where
  weaken _ h := h
  advance := finishAdvance_stands (pending_stands l) (fun _ h => h) (fun _ _ _ _ _ h => h)
  fire _ _ _ _ _ _ _ h := h
  tick _ _ h := h
  arm _ _ _ _ h := h
  adopt _ _ _ _ h := h

/-- Settles O2: every row answers a next state, and no update is of the queue. -/
theorem everyCommandAnswersAndKeepsQueue : Obligations.EveryCommandAnswersAndKeepsQueue := fun c s =>
  ⟨s.after c, exec_eq_next_after c s, after_stands (pending_stands s.pending) (pending_stands s.pending) (pending_moves s.pending) c rfl⟩

/-- Settles O1. -/
theorem stepTakesFrontOfQueue : Obligations.StepTakesFrontOfQueue := by
  refine ⟨fun s c rest h => ?_, fun s h => ?_⟩
  · unfold step
    rw [h]
  · unfold step
    rw [h]

end Sys2Proof.Machine
end

section
/-! SUPPORT. The SETUP record's bytes (R155, R156): the 22 bytes after the groups spell the record's other fields, each in its place. -/

namespace Sys2Proof.Machine

theorem parseSelection_eq_some_iff (b : Byte) (x : Selection) : parseSelection b = some x ↔ b = selectionByte x := by
  unfold parseSelection
  constructor
  · intro h
    split at h
    · cases h; assumption
    · split at h
      · cases h; assumption
      · split at h
        · cases h; assumption
        · split at h
          · cases h; assumption
          · cases h
  · rintro rfl
    cases x <;> rfl

/-- A word's two bytes name its number. -/
theorem numberBytes_eq_iff (n : Nat) (hi lo : Byte) (h : n < 65536) : numberBytes n = [hi, lo] ↔ (word2 hi lo).toNat = n := by
  rw [numberBytes, bytes2_eq_iff]
  constructor
  · intro hw
    rw [hw, BitVec.toNat_ofNat, Nat.mod_eq_of_lt h]
  · intro hn
    rw [← hn, BitVec.ofNat_toNat, BitVec.setWidth_eq]

/-- The bytes after the groups. -/
def SetupRecord.tailBytes (r : SetupRecord) : List Byte :=
  bytes2 r.lineMask ++ bytes2 r.initialLevels ++ [r.periodCode] ++
    numberBytes r.minLead ++ bytes2 r.enableMask ++ [BitVec.ofNat 8 r.sendAttempts] ++
    [selectionByte r.selections.t0, selectionByte r.selections.t1, selectionByte r.selections.t2, selectionByte r.selections.t3] ++
    numberBytes r.gaps.t0 ++ numberBytes r.gaps.t1 ++ numberBytes r.gaps.t2 ++ numberBytes r.gaps.t3

theorem SetupRecord.bytes_eq (r : SetupRecord) : r.bytes = BitVec.ofNat 8 r.groups.length :: (r.groups ++ r.tailBytes) := rfl

theorem SetupRecord.length_tailBytes (r : SetupRecord) : r.tailBytes.length = 22 := rfl

theorem SetupRecord.gapsOk_iff (r : SetupRecord) :
    r.gapsOk = true ↔ r.gaps.t0 < 65536 ∧ r.gaps.t1 < 65536 ∧ r.gaps.t2 < 65536 ∧ r.gaps.t3 < 65536 := by
  simp [SetupRecord.gapsOk, and_assoc]

/-- The record's numbers fit the bytes that carry them. -/
def SetupRecord.Fits (r : SetupRecord) : Prop := r.minLead < 65536 ∧ r.sendAttempts < 256 ∧ r.gapsOk = true

theorem numberBytes_word2 (hi lo : Byte) : numberBytes (word2 hi lo).toNat = [hi, lo] :=
  (numberBytes_eq_iff _ hi lo (word2 hi lo).isLt).2 rfl

theorem bytes2_word2 (hi lo : Byte) : bytes2 (word2 hi lo) = [hi, lo] := (bytes2_eq_iff _ hi lo).2 rfl

/-- What the tail's reader answers, it answers of the tail's own bytes. -/
theorem tailBytes_of_parseSetupTail {groups tail : List Byte} {r : SetupRecord} (h : parseSetupTail groups tail = some r) :
    r.groups = groups ∧ r.Fits ∧ tail = r.tailBytes := by
  unfold parseSetupTail at h
  split at h
  · split at h
    · rename_i ha hb hc hd
      injection h with h
      subst h
      rw [parseSelection_eq_some_iff] at ha hb hc hd
      refine ⟨rfl, ⟨BitVec.isLt _, BitVec.isLt _, (SetupRecord.gapsOk_iff _).2
        ⟨BitVec.isLt _, BitVec.isLt _, BitVec.isLt _, BitVec.isLt _⟩⟩, ?_⟩
      simp only [SetupRecord.tailBytes, bytes2_word2, numberBytes_word2, BitVec.ofNat_toNat, BitVec.setWidth_eq, ← ha, ← hb, ← hc,
        ← hd, List.cons_append, List.nil_append]
    · cases h
  · cases h

theorem parseSetupTail_tailBytes (r : SetupRecord) (h : r.Fits) : parseSetupTail r.groups r.tailBytes = some r := by
  obtain ⟨hlead, hattempts, hgaps⟩ := h
  obtain ⟨h0, h1, h2, h3⟩ := r.gapsOk_iff.1 hgaps
  have hnumber : ∀ n : Nat, n < 65536 →
      (word2 ((BitVec.ofNat 16 n).extractLsb' 8 8) ((BitVec.ofNat 16 n).extractLsb' 0 8)).toNat = n := by
    intro n hn
    rw [word2_extractLsb', BitVec.toNat_ofNat, Nat.mod_eq_of_lt hn]
  have hsel : ∀ x : Selection, parseSelection (selectionByte x) = some x := fun x => (parseSelection_eq_some_iff _ x).2 rfl
  simp only [SetupRecord.tailBytes, numberBytes, bytes2, List.cons_append, List.nil_append, parseSetupTail, hsel,
    word2_extractLsb', BitVec.toNat_ofNat, Nat.mod_eq_of_lt hlead, Nat.mod_eq_of_lt hattempts, Nat.mod_eq_of_lt h0,
    Nat.mod_eq_of_lt h1, Nat.mod_eq_of_lt h2, Nat.mod_eq_of_lt h3]

theorem SetupRecord.ok_iff (r : SetupRecord) : r.ok = true ↔ groupsOk r.groups = true ∧ r.periodCode.toNat ≤ 3 ∧ 8 ≤ r.minLead ∧
    r.minLead ≤ 1023 ∧ 1 ≤ r.sendAttempts ∧ r.sendAttempts ≤ 8 := by
  simp [SetupRecord.ok, and_assoc]

theorem length_of_groupsOk {gs : List Byte} (h : groupsOk gs = true) : gs.length ≤ 8 := by
  simp only [groupsOk, Bool.and_eq_true, decide_eq_true_eq] at h
  exact h.1.1

/-- Settles O12: the count fixes the groups, and the tail the rest (R155, R156). -/
theorem setupRecordIsItsBytesExactly : Obligations.SetupRecordIsItsBytesExactly := by
  intro args r
  constructor
  · intro h
    have hok := ok_of_parseSetup h
    cases args with
    | nil => cases h
    | cons count rest =>
      unfold parseSetup at h
      dsimp only at h
      split at h
      · rename_i r' htail
        split at h
        · injection h with h
          subst h
          obtain ⟨hgroups, ⟨-, -, hgaps⟩, hdrop⟩ := tailBytes_of_parseSetupTail htail
          refine ⟨hok, hgaps, ?_⟩
          have hlen := congrArg List.length hdrop
          rw [List.length_drop, SetupRecord.length_tailBytes] at hlen
          have hcount : r'.groups.length = count.toNat := by rw [hgroups, List.length_take]; omega
          rw [SetupRecord.bytes_eq, hcount, BitVec.ofNat_toNat, BitVec.setWidth_eq, hgroups, ← hdrop, List.take_append_drop]
        · cases h
      · cases h
  · rintro ⟨hok, hgaps, rfl⟩
    obtain ⟨hgroups, -, -, hlead, -, hattempts⟩ := r.ok_iff.1 hok
    have hcount := length_of_groupsOk hgroups
    have htail := parseSetupTail_tailBytes r ⟨by omega, by omega, hgaps⟩
    rw [SetupRecord.bytes_eq, parseSetup, BitVec.toNat_ofNat, Nat.mod_eq_of_lt (by omega), List.take_left, List.drop_left, htail]
    exact if_pos hok

end Sys2Proof.Machine
end

section
/-! SUPPORT. Station control's commands: shape refusals (R168), SETUP (R156), JOIN (R157), LEAVE (R159, R160), RESTART and the resets (R151 to
R154). First, what a run of notices leaves of the queue where there is room (R171, R172). -/

namespace Sys2Proof.Machine

/-! ### Runs of notices -/

/-- R172: the port after a run of notices, at a station with this record. -/
def Port.pushAll (t : Station) (p : Port) (ns : List Notice) : Port := ns.foldl (fun p n => p.push (t.enables n.cls) n) p

@[simp] theorem Port.pushAll_nil (t : Station) (p : Port) : p.pushAll t [] = p := rfl

theorem Port.pushAll_cons (t : Station) (p : Port) (n : Notice) (ns : List Notice) :
    p.pushAll t (n :: ns) = (p.push (t.enables n.cls) n).pushAll t ns := rfl

theorem Port.pushAll_append (t : Station) (p : Port) (ns ms : List Notice) : p.pushAll t (ns ++ ms) = (p.pushAll t ns).pushAll t ms :=
  List.foldl_append

/-- Notices touch the host port alone. -/
theorem notifyAll_eq (ns : List Notice) (s : State) : notifyAll ns s = s.withPort (s.port.pushAll s.station ns) := by
  induction ns generalizing s with
  | nil => rfl
  | cons n ns ih => exact ih (notify n s)

/-- R172: what the station enables is told by its state after JOIN and its mask. -/
theorem Station.enables_congr {t u : Station} (hj : t.joined = u.joined) (hm : t.setup.enableMask = u.setup.enableMask) :
    t.enables = u.enables := by
  funext c
  unfold Station.enables
  rw [hj, hm]

theorem Port.pushAll_congr {t u : Station} (h : t.enables = u.enables) (p : Port) (ns : List Notice) :
    p.pushAll t ns = p.pushAll u ns := by
  unfold Port.pushAll
  rw [h]

theorem Port.push_used (p : Port) (b : Bool) (n : Notice) (h : p.used < 16) :
    (p.push b n).notices = p.notices ++ (if b then [n] else []) ∧ (p.push b n).used = p.used + (if b then 1 else 0) := by
  cases b with
  | false => exact ⟨(List.append_nil _).symm, rfl⟩
  | true =>
    obtain ⟨hn, -⟩ := p.push_of_free n h
    refine ⟨hn, ?_⟩
    rw [Port.used, hn, p.push_reservation, Port.used, List.length_append, List.length_singleton]
    simp only [if_true]
    omega

/-- R172: with room for them all, the enabled ones of a run of notices enter the queue, in their order. -/
theorem Port.pushAll_notices (t : Station) (p : Port) (ns : List Notice) (h : p.used + ns.length ≤ 16) :
    (p.pushAll t ns).notices = p.notices ++ ns.filter (fun n => t.enables n.cls) ∧
      (p.pushAll t ns).used = p.used + (ns.filter (fun n => t.enables n.cls)).length := by
  induction ns generalizing p with
  | nil => simp
  | cons n ns ih =>
    rw [List.length_cons] at h
    obtain ⟨hn, hu⟩ := p.push_used (t.enables n.cls) n (by omega)
    have hroom : (p.push (t.enables n.cls) n).used + ns.length ≤ 16 := by
      rw [hu]
      split <;> omega
    obtain ⟨hns, hus⟩ := ih _ hroom
    rw [Port.pushAll_cons, hns, hus, hn, hu]
    cases he : t.enables n.cls
    · simp [he]
    · simp [he]
      omega

/-- R172: notices enter at the tail. -/
theorem Port.pushAll_prefix (t : Station) (p : Port) (ns : List Notice) : ∃ rest, (p.pushAll t ns).notices = p.notices ++ rest := by
  induction ns generalizing p with
  | nil => exact ⟨[], (List.append_nil _).symm⟩
  | cons n ns ih =>
    obtain ⟨rest, hrest⟩ := ih (p.push (t.enables n.cls) n)
    rw [Port.pushAll_cons, hrest]
    rcases p.push_cases (t.enables n.cls) n with ⟨-, hn, -⟩ | ⟨-, -, hn, -⟩ | ⟨-, -, hn, -⟩
    · exact ⟨rest, by rw [hn]⟩
    · exact ⟨n :: rest, by rw [hn, List.append_assoc]; rfl⟩
    · exact ⟨rest, by rw [hn]⟩

@[simp] theorem Port.pushAll_reservation (t : Station) (p : Port) (ns : List Notice) :
    (p.pushAll t ns).reservation = p.reservation := by
  induction ns generalizing p with
  | nil => rfl
  | cons n ns ih => exact (ih _).trans (p.push_reservation _ n)

/-! ### Shape refusals (R168) -/

/-- R167, R168: FORM is one byte; the first byte after the command shifts it out. -/
theorem trailingBytes_form (n : Nat) (name : CommandName) (s : State) :
    trailingBytes n (answerCommand (some name) (refusal .form) s) = s.withPort { s.port with
      phase := if s.pins.ncs = .high then .waiting else if n = 0 then .results else .done,
      command := some name, argsExpected := 0, args := [], response := some ⟨.form, []⟩, shifted := min 1 n } := by
  have hphase : (if 1 ≤ n then Phase.done else .results) = if n = 0 then .results else .done := by
    cases n with
    | zero => rfl
    | succ n => rw [if_pos (Nat.le_add_left 1 n), if_neg (Nat.succ_ne_zero n)]
  cases hn : s.pins.ncs with
  | low => simp [trailingBytes, answerCommand, Port.clocked, State.withPort, Response.bytes, refusal, hn, hphase]
  | high => simp [trailingBytes, answerCommand, Port.clocked, State.withPort, Response.bytes, refusal, hn]

/-- Settles O15: each such length field or kind is refused at its own byte (R167, R168). -/
theorem shapeRefusalsAnswerForm : Obligations.ShapeRefusalsAnswerForm := by
  intro s hs form
  have hform : ∀ (name : CommandName) (shape : List Byte → Shape) (run : List Byte → State → Response × State)
      (front rest : List Byte), shape (front ++ rest) = .refused front.length →
      Host.Outcome.next (shapedCommand name shape run (front ++ rest) s) = form name rest := by
    intro name shape run front rest hshape
    rw [shapedCommand_of_refused name shape run _ _ s hs hshape, List.length_append, Nat.add_sub_cancel_left, trailingBytes_form]
    simp only [List.length_eq_zero_iff]
    rfl
  have hcount : ∀ control : Byte, 4 < (control.extractLsb' 0 3).toNat → ¬(control.extractLsb' 0 3).toNat = 0 := by omega
  refine ⟨fun handle kind rest hk => ?_, fun handle mode number len rest hlen => ?_,
    fun handle mode number f3 f2 f1 f0 control rest hc => ?_, fun input mode number l1 l0 control rest hc => ?_,
    fun count rest hc => ?_⟩
  · refine hform .send sendShape runSend [handle, kind] rest ?_
    have h1 : kind ≠ 1 := by rcases hk with rfl | hk <;> [decide; (rintro rfl; exact absurd hk (by decide))]
    have h2 : kind ≠ 2 := by rcases hk with rfl | hk <;> [decide; (rintro rfl; exact absurd hk (by decide))]
    have h3 : kind ≠ 3 := by rcases hk with rfl | hk <;> [decide; (rintro rfl; exact absurd hk (by decide))]
    change (if kind = 1 then _ else if kind = 2 then _ else if kind = 3 then _ else Shape.refused 2) = _
    rw [if_neg h1, if_neg h2, if_neg h3]
    rfl
  · exact hform .send sendShape runSend [handle, 3, mode, number, len] rest (if_pos hlen)
  · exact hform .send sendShape runSend [handle, 2, mode, number, f3, f2, f1, f0, control] rest (if_pos hc)
  · exact hform .loadTrigger loadTriggerShape runLoadTrigger [input, mode, number, l1, l0, control] rest (if_pos hc)
  · exact hform .setup setupShape runSetup [count] rest (if_pos hc)

/-! ### SETUP (R156) -/

theorem setupShape_bytes (r : SetupRecord) (h : r.ok = true) : setupShape r.bytes = .taken r.bytes := by
  obtain ⟨hgroups, -⟩ := r.ok_iff.1 h
  have hcount := length_of_groupsOk hgroups
  have hnat : (BitVec.ofNat 8 r.groups.length).toNat = r.groups.length := by
    rw [BitVec.toNat_ofNat, Nat.mod_eq_of_lt (by omega)]
  rw [SetupRecord.bytes_eq, setupShape, hnat, if_neg (Nat.not_lt.2 (show r.groups.length ≤ Config.groupsMax from hcount))]
  refine exactly_of_length _ _ ?_
  rw [List.length_cons, List.length_append, SetupRecord.length_tailBytes]
  omega

/-- A port that takes a command answers SETUP at its last argument byte. -/
theorem exec_setup (s : State) (args : List Byte) (hs : s.Ready) (hshape : setupShape args = .taken args) :
    exec (.setup args) s = .next (answerCommand (some .setup) (runSetup args s).1 (runSetup args s).2) :=
  congrArg Host.Outcome.next (shapedCommand_of_taken .setup setupShape runSetup args s hs hshape)

theorem runSetup_of_setup {s : State} (h : s.station.state = .setup) (args : List Byte) : runSetup args s =
    (parseSetup args).elim (refusal .form, s) fun r => (okWith [], s.withStation { s.station with setup := r }) := by
  rw [runSetup, if_neg (by simp [h])]
  cases parseSetup args <;> rfl

/-- Settles O16. -/
theorem setupReplacesTheRecord : Obligations.SetupReplacesTheRecord := by
  refine ⟨fun s r hs hstate hok hgaps => ?_, fun s args hs hshape => ⟨fun hstate => ?_, fun hstate hbad => ?_⟩⟩
  · have hparse := (setupRecordIsItsBytesExactly r.bytes r).2 ⟨hok, hgaps, rfl⟩
    rw [exec_setup s _ hs (setupShape_bytes r hok), runSetup_of_setup hstate, hparse]
    rfl
  · rw [exec_setup s _ hs hshape, runSetup, if_pos hstate]
    rfl
  · have hparse : parseSetup args = none := by
      cases hp : parseSetup args with
      | none => rfl
      | some r =>
        obtain ⟨hok, hgaps, hargs⟩ := (setupRecordIsItsBytesExactly args r).1 hp
        exact absurd hargs (hbad r hok hgaps)
    rw [exec_setup s _ hs hshape, runSetup_of_setup hstate, hparse]
    rfl

/-! ### JOIN (R157) -/

/-- A port that takes a command answers JOIN at its command byte. -/
theorem exec_join (s : State) (hs : s.Ready) : exec .join s = .next (answerCommand (some .join) (runJoin s).1 (runJoin s).2) :=
  congrArg Host.Outcome.next (hostCommand_of_ready .join runJoin s hs)

/-- R146: a template stays at JOIN when its lead is not below the minimum lead. -/
theorem keptTemplate_eq_filter (minLead : Nat) (t : Option Template) :
    keptTemplate minLead t = t.filter (fun x => decide (minLead ≤ x.lead.toNat)) := by
  cases t with
  | none => rfl
  | some x =>
    rw [Option.filter_some]
    by_cases h : x.lead.toNat < minLead
    · simp [keptTemplate, h, Nat.not_le.2 h]
    · simp [keptTemplate, h, Nat.le_of_not_lt h]

/-- R140, R146: the input records that JOIN leaves. -/
theorem fourGet_joinInputs (s : State) (i : Fin 4) : fourGet (joinInputs s).inputs i = { fourGet s.inputs i with
    selection := fourGet s.station.setup.selections i, gap := fourGet s.station.setup.gaps i, level := fourGet s.pins.ti i,
    template := (fourGet s.inputs i).template.filter (fun x => decide (s.station.setup.minLead ≤ x.lead.toNat)) } := by
  rw [← keptTemplate_eq_filter]
  match i with
  | 0 | 1 | 2 | 3 => rfl

/-- R150, R157: the TRIGGER notice of JOIN for one input, if its template is cleared. -/
def State.clearedAt (s : State) (i : Fin 4) : Option Notice :=
  (fourGet s.inputs i).template.bind fun x =>
    if x.lead.toNat < s.station.setup.minLead then some (.trigger i .cleared 0 none 0 0 s.clock.lineTime) else none

theorem clearedNotices_eq (s : State) : clearedNotices s = [0, 1, 2, 3].filterMap s.clearedAt := by
  rw [List.filterMap_eq_flatMap_toList]
  refine List.flatMap_congr fun i _ => ?_
  unfold clearedNotice State.clearedAt
  cases (fourGet s.inputs i).template with
  | none => rfl
  | some x =>
    dsimp only [Option.bind_some]
    split <;> rfl

theorem clearedNotices_cls {s : State} {n : Notice} (h : n ∈ clearedNotices s) : n.cls = .trigger := by
  rw [clearedNotices, List.mem_flatMap] at h
  obtain ⟨i, -, hi⟩ := h
  unfold clearedNotice at hi
  split at hi
  · split at hi
    · rw [List.mem_singleton.1 hi]; rfl
    · cases hi
  · cases hi

theorem length_clearedNotices_le (s : State) : (clearedNotices s).length ≤ 4 := by
  rw [clearedNotices_eq]
  exact List.length_filterMap_le _ _

/-- R47: the levels that JOIN gives the points. -/
theorem Points.level_joined (p : Points) (r : SetupRecord) (i : Fin 16) : (p.joined r).level i =
    if r.lineMask.getLsbD i.val then bitLevel (r.initialLevels.getLsbD i.val) else p.level i := by
  rw [Points.level_eq_bitLevel, Points.level_eq_bitLevel]
  have hi : i.val < 16 := i.isLt
  have hbit : (p.joined r).levels.getLsbD i.val =
      if r.lineMask.getLsbD i.val then r.initialLevels.getLsbD i.val else p.levels.getLsbD i.val := by
    unfold Points.joined
    dsimp only
    rw [BitVec.getLsbD_or, BitVec.getLsbD_and, BitVec.getLsbD_and, BitVec.getLsbD_not]
    cases r.lineMask.getLsbD i.val <;> simp [hi]
  rw [hbit]
  split <;> rfl

/-- Settles O17. -/
theorem joinTakesTheFrozenRecord : Obligations.JoinTakesTheFrozenRecord := by
  refine ⟨fun s hs hstate => ?_, fun s hs hstate hok => ?_⟩
  · rw [exec_join s hs, runJoin, if_pos hstate]
    rfl
  · refine ⟨_, exec_join s hs, ?_⟩
    rw [runJoin_of_setup hstate]
    have hp := notifyAll_eq (stationNotice (some .setup) .joined none s.joining :: clearedNotices s) s.joining
    rw [notifyAll_cons] at hp
    obtain ⟨-, hcode, -⟩ := s.station.setup.ok_iff.1 hok
    have hdue := isNextDue_firstMultipleAfter (beaconPeriod_mem hcode) s.clock.lineTime
    simp only [answerCommand_response, answerCommand_station, answerCommand_points, answerCommand_inputs, answerCommand_clock,
      answerCommand_line, answerCommand_send, answerCommand_cues, answerCommand_peers, answerCommand_decoder, answerCommand_pins,
      answerCommand_notices]
    refine ⟨rfl, by rw [hp]; rfl, fun i => by rw [hp]; rfl, fun i => by rw [hp]; exact s.points.level_joined _ i, by rw [hp]; rfl,
      fun i => by rw [hp]; exact fourGet_joinInputs s i, ⟨_, by rw [hp]; rfl, ?_⟩, by rw [hp]; rfl, by rw [hp]; rfl, by rw [hp]; rfl,
      by rw [hp]; rfl, by rw [hp]; rfl, by rw [hp]; rfl, fun hroom hmask => ?_⟩
    · rw [hp]
      exact hdue
    · have hstation : ((stationNotice (some .setup) .joined none s.joining) :: clearedNotices s).filter
          (fun n => s.joining.station.enables n.cls) = stationNotice (some .setup) .joined none s.joining :: clearedNotices s := by
        refine List.filter_eq_self.2 fun n hn => ?_
        rcases List.mem_cons.1 hn with rfl | hn
        · rfl
        · rw [clearedNotices_cls hn]
          exact (Station.enables_iff _ _).2 (.inr (.inr (.inr (.inr hmask))))
      have hlen := length_clearedNotices_le s
      have hall := (s.port.pushAll_notices s.joining.station
        (stationNotice (some .setup) .joined none s.joining :: clearedNotices s)
        (by rw [List.length_cons]; change s.port.used + 5 ≤ 16 at hroom; omega)).1
      rw [hstation] at hall
      rw [hp]
      refine hall.trans (congrArg (fun l => s.port.notices ++ stationNotice (some .setup) .joined none s.joining :: l) ?_)
      rw [clearedNotices_eq]
      refine List.filterMap_congr fun i _ => ?_
      unfold State.clearedAt
      cases (fourGet s.inputs i).template <;> rfl

end Sys2Proof.Machine
end

section
/-! SUPPORT. The entry to SILENT, whole (R87, R90, R137, R160), and the commands and resets of station control that stop a station: LEAVE
(R159), RESTART (R154), the full reset and its release (R151 to R153). -/

namespace Sys2Proof.Machine

/-! ### The entry to SILENT -/

/-- R138: the SEND_DONE notices of a queue that ends SILENCED. -/
def State.silencedNotices (s : State) : List Notice := s.send.queue.map (s.doneWith .silenced)

/-- R87, R88: the CLOCK notice of a REFERENCE that leaves ACTIVE. -/
def State.leftActiveNotices (s : State) : List Notice :=
  if s.clock.state = .reference then [.clock .leftActive .reference .holdover none 0 false .holdover s.clock.lineTime] else []

/-- R87: the clock at the entry to SILENT. -/
def Clock.leftActive (c : Clock) : Clock :=
  if c.state = .reference then { c with state := .holdover, refId := none, holdoverCount := 0, missCount := 0 } else c

/-- R137, R86: the send unit at the entry to SILENT. -/
def SendUnit.silenced (u : SendUnit) : SendUnit :=
  { u with queue := [], issued := u.issued ++ issuedByEnding u.queue, slot := if u.slot = .queued then .empty else u.slot,
           offered := .none }

/-- R160: the station record in SILENT. -/
def Station.silenced (t : Station) : Station := { t with state := .silent, leavePending := false, dupPending := false }

/-- R160: what the entry to SILENT leaves, its notices apart. -/
def State.silenced (s : State) : State :=
  (((s.withStation s.station.silenced).withLine s.line.releaseWires).withSend s.send.silenced).withClock s.clock.leftActive

/-- R138: what a SEND_DONE tells of the station is its attempts and its line time. -/
theorem State.doneWith_congr {s t : State} (ha : t.station.setup.sendAttempts = s.station.setup.sendAttempts)
    (hc : t.clock.lineTime = s.clock.lineTime) (o : SendOutcome) (e : SendEntry) : t.doneWith o e = s.doneWith o e := by
  unfold State.doneWith
  rw [ha, hc]

theorem State.silencedNotices_congr {s t : State} (hq : t.send.queue = s.send.queue)
    (ha : t.station.setup.sendAttempts = s.station.setup.sendAttempts) (hc : t.clock.lineTime = s.clock.lineTime) :
    t.silencedNotices = s.silencedNotices := by
  unfold State.silencedNotices
  rw [hq]
  exact List.map_congr_left fun e _ => State.doneWith_congr ha hc .silenced e

theorem silenceQueue_eq_pushAll (s : State) : silenceQueue s = (s.withSend { s.send with
    queue := [], issued := s.send.issued ++ issuedByEnding s.send.queue, offered := .none }).withPort
      (s.port.pushAll s.station s.silencedNotices) := by
  rw [silenceQueue_eq_notifyAll, notifyAll_eq]
  rfl

theorem clockLeavesActive_eq_pushAll (s : State) : clockLeavesActive s = ((s.withSend { s.send with
    slot := if s.send.slot = .queued then .empty else s.send.slot }).withClock s.clock.leftActive).withPort
      (s.port.pushAll s.station s.leftActiveNotices) := by
  unfold clockLeavesActive Clock.leftActive State.leftActiveNotices
  by_cases h : s.clock.state = .reference
  · simp only [State.withSend_clock, h, if_true]
    rfl
  · simp only [State.withSend_clock, h, if_false]
    rfl

/-- R160: the two blocks' reactions, the send unit's and the clock's, in one order or the other. -/
theorem silencing_eq (s : State) : ∃ n ns, (ns = s.silencedNotices ++ s.leftActiveNotices ∨ ns = s.leftActiveNotices ++ s.silencedNotices) ∧
    eitherOrder silenceQueue clockLeavesActive s =
      (((s.withSend s.send.silenced).withClock s.clock.leftActive).withPort (s.port.pushAll s.station ns)).withOrder n := by
  have hqueueFirst : ∀ x : State, clockLeavesActive (silenceQueue x) = ((x.withSend x.send.silenced).withClock x.clock.leftActive).withPort
      (x.port.pushAll x.station (x.silencedNotices ++ x.leftActiveNotices)) := by
    intro x
    rw [silenceQueue_eq_pushAll, clockLeavesActive_eq_pushAll, Port.pushAll_append]
    rfl
  have hclockFirst : ∀ x : State, silenceQueue (clockLeavesActive x) = ((x.withSend x.send.silenced).withClock x.clock.leftActive).withPort
      (x.port.pushAll x.station (x.leftActiveNotices ++ x.silencedNotices)) := by
    intro x
    have htime : x.clock.leftActive.lineTime = x.clock.lineTime := by
      unfold Clock.leftActive
      split <;> rfl
    have hnotices : (clockLeavesActive x).silencedNotices = x.silencedNotices := by
      rw [clockLeavesActive_eq_pushAll]
      exact State.silencedNotices_congr rfl rfl htime
    rw [silenceQueue_eq_pushAll, hnotices, clockLeavesActive_eq_pushAll, Port.pushAll_append]
    rfl
  rcases eitherOrder_cases silenceQueue clockLeavesActive s with e | e | e
  · exact ⟨s.order, _, .inl rfl, by rw [e, hqueueFirst]; rfl⟩
  · exact ⟨s.order + 1, _, .inr rfl, by rw [e, hclockFirst]; rfl⟩
  · exact ⟨s.order + 1, _, .inl rfl, by rw [e, hqueueFirst]; rfl⟩

/-- R160: STATION comes first, then the notices of the send unit and of the clock, in one order or the other. -/
theorem enterSilent_eq (cause : StationCause) (kind : Option (BitVec 3)) (s : State) : ∃ n ns,
    (ns = s.silencedNotices ++ s.leftActiveNotices ∨ ns = s.leftActiveNotices ++ s.silencedNotices) ∧
    enterSilent cause kind s = (s.silenced.withPort (s.port.pushAll s.station.silenced
      (.station (some s.station.state) .silent cause kind s.station.id s.clock.lineTime :: ns))).withOrder n := by
  obtain ⟨n, ns, hns, he⟩ := silencing_eq (enterState .silent cause kind
    ((s.withStation { s.station with leavePending := false, dupPending := false }).withLine s.line.releaseWires))
  exact ⟨n, ns, hns, he⟩

/-! ### LEAVE (R159) -/

/-- A port that takes a command answers LEAVE at its command byte. -/
theorem exec_leave (s : State) (hs : s.Ready) : exec .leave s = .next (answerCommand (some .leave) (runLeave s).1 (runLeave s).2) :=
  congrArg Host.Outcome.next (hostCommand_of_ready .leave runLeave s hs)

theorem runLeave_of_joined {s : State} (h : s.station.state = .listen ∨ s.station.state = .active) :
    runLeave s = runLeave.leave s := by
  unfold runLeave
  rcases h with h | h <;> rw [h]

theorem runLeave_of_other {s : State} (hl : s.station.state ≠ .listen) (ha : s.station.state ≠ .active) :
    runLeave s = (refusal .wrongState, s) := by
  unfold runLeave
  cases h : s.station.state with
  | listen => exact absurd h hl
  | active => exact absurd h ha
  | halted | setup | silent => rfl

/-- R160, R172: the classes enabled stay as they are at the entry to SILENT from a state after JOIN. -/
theorem Station.silenced_enables {t : Station} (h : t.joined = true) : t.silenced.enables = t.enables :=
  Station.enables_congr h.symm rfl

theorem Stretch.letGo_eq (x : Stretch) : x.letGo = if x = .holding then .released else x := by cases x <;> rfl

theorem silencedNotices_cls {s : State} {n : Notice} (h : n ∈ s.silencedNotices) : n.cls = .sendDone := by
  obtain ⟨e, -, rfl⟩ := List.mem_map.1 h
  rfl

/-- R172: of the notices of an entry to SILENT the CLOCK notice alone can be disabled. -/
theorem filter_silencedNotices (s : State) (t : Station) :
    s.silencedNotices.filter (fun n => t.enables n.cls) = s.silencedNotices :=
  List.filter_eq_self.2 fun n hn => by rw [silencedNotices_cls hn]; rfl

theorem filter_leftActiveNotices (s : State) (t : Station) : s.leftActiveNotices.filter (fun n => t.enables n.cls) =
    if s.clock.state = .reference ∧ t.enables .clock = true then
      [.clock .leftActive .reference .holdover none 0 false .holdover s.clock.lineTime] else [] := by
  unfold State.leftActiveNotices
  by_cases hc : s.clock.state = .reference
  · rw [if_pos hc]
    by_cases he : t.enables .clock = true
    · rw [if_pos ⟨hc, he⟩]
      exact List.filter_cons_of_pos he
    · rw [if_neg fun h => he h.2]
      exact List.filter_cons_of_neg he
  · rw [if_neg hc, if_neg fun h => hc h.1]
    rfl

theorem length_leftActiveNotices_le (s : State) : s.leftActiveNotices.length ≤ 1 := by
  unfold State.leftActiveNotices
  split <;> simp

/-- Settles O18. -/
theorem leaveSilencesOrWaits : Obligations.LeaveSilencesOrWaits := by
  refine ⟨fun s hs hl ha => ?_, fun s hs hjoined => ⟨fun hpending hrole => ?_, fun hwait => ?_⟩⟩
  · rw [exec_leave s hs, runLeave_of_other hl ha]
    rfl
  · refine ⟨_, exec_leave s hs, ?_⟩
    have hrun : runLeave s = (okWith [0], enterSilent .leave none s) := by
      rw [runLeave_of_joined hjoined, runLeave.leave, if_neg (by simp [hpending]), if_neg hrole]
    have hj : s.station.joined = true := by
      unfold Station.joined
      rcases hjoined with h | h <;> rw [h]
    obtain ⟨n, ns, hns, he⟩ := enterSilent_eq .leave none s
    rw [hrun, he]
    simp only [answerCommand_response, answerCommand_station, answerCommand_points, answerCommand_inputs, answerCommand_clock,
      answerCommand_line, answerCommand_send, answerCommand_cues, answerCommand_peers, answerCommand_decoder, answerCommand_pins,
      answerCommand_notices]
    refine ⟨rfl, rfl, rfl, rfl, ?_, rfl, rfl, rfl, rfl, rfl, rfl, fun hroom => ?_, fun hroom => ?_⟩
    · rw [← Stretch.letGo_eq]
      rfl
    · change s.port.used < 16 at hroom
      obtain ⟨rest, hrest⟩ := Port.pushAll_prefix s.station.silenced (s.port.push true
        (.station (some s.station.state) .silent .leave none s.station.id s.clock.lineTime)) ns
      refine ⟨rest, hrest.trans ?_⟩
      rw [(s.port.push_of_free _ hroom).1, List.append_assoc]
      rfl
    · have hsilenced : s.silencedNotices.length = s.send.queue.length := List.length_map _
      have hleft := length_leftActiveNotices_le s
      have hlen : ns.length ≤ s.send.queue.length + 1 := by
        rcases hns with rfl | rfl <;> rw [List.length_append] <;> omega
      have hall := (s.port.pushAll_notices s.station.silenced
        (.station (some s.station.state) .silent .leave none s.station.id s.clock.lineTime :: ns)
        (by rw [List.length_cons]; change _ + _ + 2 ≤ 16 at hroom; omega)).1
      rw [List.filter_cons_of_pos rfl, Station.silenced_enables hj] at hall
      rw [← filter_leftActiveNotices s s.station]
      rcases hns with rfl | rfl
      · refine .inl (hall.trans ?_)
        rw [List.filter_append, filter_silencedNotices, List.append_assoc, List.append_assoc]
        rfl
      · refine .inr (hall.trans ?_)
        rw [List.filter_append, filter_silencedNotices, List.append_assoc, List.append_assoc]
        rfl
  · have hrun : runLeave s = (okWith [1], s.withStation { s.station with leavePending := true }) := by
      rw [runLeave_of_joined hjoined, runLeave.leave]
      by_cases hp : s.station.leavePending = true
      · rw [if_pos hp, ← hp]
        rfl
      · rw [if_neg hp, if_pos (hwait.resolve_left hp)]
    rw [exec_leave s hs, hrun]
    rfl

/-! ### RESTART and the resets (R151 to R154) -/

/-- A port that takes a command answers RESTART at its command byte. -/
theorem exec_restart (s : State) (straps : Straps) (hs : s.Ready) : exec (.restart straps) s =
    .next (answerCommand (some .restart) (runRestart straps s).1 (runRestart straps s).2) :=
  congrArg Host.Outcome.next (hostCommand_of_ready .restart (runRestart straps) s hs)

/-- R151, R152: the straps as the station record holds them. -/
theorem sampledStation_eq (straps : Straps) : sampledStation straps =
    { state := if straps.id = 0 ∨ straps.id = 63 then .halted else .setup, id := straps.id.setWidth 8,
      eligible := decide (straps.tke = .high), rate := if straps.rate = .high then .kbit500 else .kbit125,
      setup := SetupRecord.default, leavePending := false, dupPending := false } := by
  unfold sampledStation
  cases straps.tke <;> cases straps.rate <;> rfl

theorem getLsbD_setBit (w : Word16) (i j : Fin 16) (b : Bool) : (setBit w i b).getLsbD j.val = if j = i then b else w.getLsbD j.val := by
  have hi : i.val < 16 := i.isLt
  have hj : j.val < 16 := j.isLt
  have hone : (1#16 <<< i.val).getLsbD j.val = decide (j = i) := by
    rw [BitVec.getLsbD_shiftLeft]
    by_cases h : j = i
    · subst h
      simp [hj]
    · have hne : j.val ≠ i.val := fun he => h (Fin.ext he)
      simp only [hj, decide_true, Bool.true_and, h, decide_false]
      by_cases hlt : j.val < i.val
      · simp [hlt]
      · have hpos : j.val - i.val ≠ 0 := by omega
        simp [hlt, BitVec.getLsbD_one, hpos]
  cases b with
  | true =>
    change (w ||| 1#16 <<< i.val).getLsbD j.val = _
    rw [BitVec.getLsbD_or, hone]
    by_cases h : j = i <;> simp [h]
  | false =>
    change (w &&& ~~~(1#16 <<< i.val)).getLsbD j.val = _
    rw [BitVec.getLsbD_and, BitVec.getLsbD_not, hone]
    by_cases h : j = i <;> simp [h, hj]

theorem setLevel_level (p : Points) (i j : Fin 16) (v : Level) : (p.setLevel i v).level j = if j = i then v else p.level j := by
  rw [Points.level_eq_bitLevel, Points.level_eq_bitLevel, Points.setLevel, getLsbD_setBit]
  split
  · cases v <;> rfl
  · rfl

/-- R61, R64: with one restore for a point at most, each point takes its own. -/
theorem level_setRestored (rs : List Restore) (p : Points) (h : (rs.map (fun r => r.point)).Nodup) (i : Fin 16) :
    (setRestored rs p).level i = ((rs.find? (fun r => r.point == i)).map (fun r => r.level)).getD (p.level i) := by
  induction rs generalizing p with
  | nil => rfl
  | cons r rs ih =>
    obtain ⟨hr, hnodup⟩ := List.nodup_cons.1 h
    rw [setRestored, ih _ hnodup, setLevel_level]
    by_cases hi : r.point = i
    · have hnone : rs.find? (fun r => r.point == i) = none :=
        List.find?_eq_none.2 fun x hx hxi => hr (List.mem_map.2 ⟨x, hx, (eq_of_beq hxi).trans hi.symm⟩)
      rw [hnone, List.find?_cons_of_pos (by simp [hi]), if_pos hi.symm]
      rfl
    · rw [List.find?_cons_of_neg (by simp [hi]), if_neg fun h => hi h.symm]

/-- Settles O19. -/
theorem restartResetsEveryBlock : Obligations.RestartResetsEveryBlock := by
  intro s straps hs hpulses
  refine ⟨_, exec_restart s straps hs, ?_⟩
  have hstation := sampledStation_eq straps
  have hlevels : ∀ i : Fin 16, (applyAllRestores s.points).level i = match s.points.pulses.find? (fun r => r.point == i) with
      | some r => r.level
      | none => s.points.level i := by
    intro i
    refine (level_setRestored s.points.pulses s.points hpulses i).trans ?_
    cases s.points.pulses.find? (fun r => r.point == i) <;> rfl
  have hbytes : (runRestart straps s).1 = ⟨.ok, [if straps.id = 0 ∨ straps.id = 63 then 0 else 1, straps.id.setWidth 8,
      if straps.tke = .high then 1 else 0, if straps.rate = .high then 1 else 0]⟩ := by
    change okWith [stationStateByte (sampledStation straps).state, (sampledStation straps).id,
      boolByte (sampledStation straps).eligible, rateByte (sampledStation straps).rate] = _
    have hstate : stationStateByte (if straps.id = 0 ∨ straps.id = 63 then .halted else .setup) =
        if straps.id = 0 ∨ straps.id = 63 then 0 else 1 := by split <;> rfl
    rw [hstation]
    dsimp only
    rw [hstate]
    cases straps.tke <;> cases straps.rate <;> rfl
  have howners : (applyAllRestores s.points).owners = s.points.owners := setRestored_owners _ _
  simp only [answerCommand_response, answerCommand_station, answerCommand_points, answerCommand_inputs, answerCommand_clock,
    answerCommand_line, answerCommand_send, answerCommand_cues, answerCommand_peers, answerCommand_decoder, answerCommand_pins,
    answerCommand_work, answerCommand_notices]
  rw [← hstation]
  unfold runRestart
  dsimp only
  by_cases hid : straps.id = 0 ∨ straps.id = 63
  · have hhalted : ¬(restarted straps s).station.state = .setup := by
      change ¬(sampledStation straps).state = .setup
      rw [hstation]
      simp only [if_pos hid, reduceCtorEq, not_false_eq_true]
    rw [if_neg hhalted]
    exact ⟨rfl, rfl, rfl, rfl, rfl, rfl, rfl, rfl, rfl, howners, rfl, hlevels, rfl, congrArg some hbytes, rfl, rfl, fun _ => ⟨rfl, rfl⟩,
      fun h0 h63 => absurd hid (not_or.2 ⟨h0, h63⟩)⟩
  · have hsetup : (restarted straps s).station.state = .setup := by
      change (sampledStation straps).state = .setup
      rw [hstation]
      exact if_neg hid
    rw [if_pos hsetup]
    refine ⟨rfl, rfl, rfl, rfl, rfl, rfl, rfl, rfl, rfl, howners, rfl, hlevels, rfl, congrArg some hbytes, rfl, rfl,
      fun h => absurd h hid, fun _ _ => ⟨?_, (Port.push_seen _ _ _).trans (show (0#16 ||| 1#16 <<< 11) = 0x0800#16 by decide)⟩⟩
    have hnotice : stationNotice (some s.station.state) .restart none (restarted straps s) =
        .station (some s.station.state) .setup .restart none (straps.id.setWidth 8) 0 := by
      unfold stationNotice
      rw [hsetup]
      rfl
    rw [hnotice]
    rfl

/-- Settles O20. -/
theorem fullResetAndRelease : Obligations.FullResetAndRelease := by
  refine ⟨fun s => rfl, fun s straps hs hlow => ?_⟩
  have hsettle := settle_of_settled s hs
  have hr : s.inReset = true := by simp [State.inReset, hlow]
  have hexec : exec (.resetRelease straps) s = .next
      (if (sampledStation straps).state = .setup then
        notify (stationNotice none .reset none ((s.withPins { s.pins with nrst := .high }).withStation (sampledStation straps)))
          ((s.withPins { s.pins with nrst := .high }).withStation (sampledStation straps))
      else (s.withPins { s.pins with nrst := .high }).withStation (sampledStation straps)) := by
    change execResetRelease straps s = _
    unfold execResetRelease
    dsimp only
    rw [hsettle, if_pos hr]
    rfl
  have hstation := sampledStation_eq straps
  refine ⟨_, hexec, ?_⟩
  rw [← hstation]
  by_cases hid : straps.id = 0 ∨ straps.id = 63
  · have hhalted : ¬(sampledStation straps).state = .setup := by
      rw [hstation]
      simp only [if_pos hid, reduceCtorEq, not_false_eq_true]
    rw [if_neg hhalted]
    exact ⟨rfl, rfl, rfl, rfl, rfl, rfl, rfl, rfl, rfl, rfl, fun _ => rfl, fun h0 h63 => absurd hid (not_or.2 ⟨h0, h63⟩)⟩
  · have hsetup : (sampledStation straps).state = .setup := by
      rw [hstation]
      exact if_neg hid
    rw [if_pos hsetup]
    refine ⟨rfl, rfl, rfl, rfl, rfl, rfl, rfl, rfl, rfl, rfl, fun h => absurd h hid, fun _ _ hport => ?_⟩
    have hnotice : stationNotice none .reset none ((s.withPins { s.pins with nrst := .high }).withStation (sampledStation straps)) =
        .station none .setup .reset none (straps.id.setWidth 8) s.clock.lineTime := by
      unfold stationNotice
      rw [State.withStation_station, hsetup]
      rfl
    rw [hnotice, notify_port, State.withStation_port, State.withPins_port, hport]
    exact ⟨rfl, (Port.push_seen _ _ _).trans (show (0#16 ||| 1#16 <<< 11) = 0x0800#16 by decide)⟩

end Sys2Proof.Machine
end

section
/-! SUPPORT. The send unit's commands and offers: SEND (R126 to R129), PURGE (R135), OFFER_HEAD and OFFER_BEACON (R85, R131). -/

namespace Sys2Proof.Machine

/-! ### SEND -/

/-- A port that takes a command answers SEND at its last argument byte. -/
theorem exec_send (s : State) (args : List Byte) (hs : s.Ready) (hshape : sendShape args = .taken args) :
    exec (.send args) s = .next (answerCommand (some .send) (runSend args s).1 (runSend args s).2) :=
  congrArg Host.Outcome.next (shapedCommand_of_taken .send sendShape runSend args s hs hshape)

theorem runSend_of_joined {s : State} (h : s.station.state = .listen ∨ s.station.state = .active) (args : List Byte) :
    runSend args s = runSend.send args s := by
  unfold runSend
  rcases h with h | h <;> rw [h]

theorem runSend_of_other {s : State} (hl : s.station.state ≠ .listen) (ha : s.station.state ≠ .active) (args : List Byte) :
    runSend args s = (refusal .wrongState, s) := by
  unfold runSend
  cases h : s.station.state with
  | listen => exact absurd h hl
  | active => exact absurd h ha
  | halted | setup | silent => rfl

section
variable (handle mode number : Byte) (fields : List Byte) (s : State)

theorem send_cue : runSend.send (handle :: 2 :: mode :: number :: fields) s = runSendCue handle mode number fields s := rfl

theorem send_withdraw (serial : Byte) : runSend.send [handle, 1, mode, number, serial] s = runSendWithdraw handle serial s := rfl

theorem send_message (len : Byte) (payload : List Byte) :
    runSend.send (handle :: 3 :: mode :: number :: len :: payload) s = runSendMessage handle mode number payload s := rfl

end

theorem queueRoom_iff (u : SendUnit) : u.queueRoom = true ↔ u.queue.length < 8 := decide_eq_true_iff
theorem queueRoom_eq_false_iff (u : SendUnit) : u.queueRoom = false ↔ 8 ≤ u.queue.length := by
  rw [← Bool.not_eq_true, queueRoom_iff, not_lt]
theorem serialRoom_iff (u : SendUnit) : u.serialRoom = true ↔ u.issued.length + u.queuedCues < 32 := decide_eq_true_iff
theorem serialRoom_eq_false_iff (u : SendUnit) : u.serialRoom = false ↔ 32 ≤ u.issued.length + u.queuedCues := by
  rw [← Bool.not_eq_true, serialRoom_iff, not_lt]

theorem synced_eq_false_iff (s : State) : s.synced = false ↔ s.clock.state = .unsynced := by
  simp [State.synced]

theorem synced_iff (s : State) : s.synced = true ↔ s.clock.state ≠ .unsynced := by
  simp [State.synced]

/-! ### The shape of a plan (R168) -/

theorem extractLsb'_word2_op (hi lo : Byte) : (word2 hi lo).extractLsb' 13 3 = hi.extractLsb' 5 3 := by
  unfold word2
  grind

/-- Formats: an action's first byte begins with its op. -/
theorem op_of_firstByte {a : Action} {hi lo : Byte} (hword : word2 hi lo = a.word) : hi.extractLsb' 5 3 = a.op.code := by
  obtain ⟨hop, -, -⟩ := (Action.word_eq_iff a (word2 hi lo)).1 hword
  rw [← extractLsb'_word2_op hi lo, hop]

/-- R168: the ops call for the bytes of their actions. -/
theorem actionsLength_actionsBytes (as : List Action) : actionsLength as.length (actionsBytes as) = (actionsBytes as).length := by
  induction as with
  | nil => rfl
  | cons a as ih =>
    obtain ⟨hi, lo, hbytes, hword⟩ := exists_bytes2 a.word
    have hop := op_of_firstByte hword
    obtain ⟨op, point⟩ := a
    rw [actionsBytes, List.flatMap_cons, List.length_append, List.length_cons, ← actionsBytes]
    cases op with
    | raise | lower | invert =>
      simp only [Action.bytes, hbytes, List.cons_append, List.nil_append, actionsLength, hop, Op.code, ih, List.length_cons,
        List.length_nil]
      rw [if_neg (by decide)]
    | pulseHigh w | pulseLow w =>
      obtain ⟨whi, wlo, hwidth, -⟩ := exists_bytes2 (widthWord w)
      simp only [Action.bytes, hbytes, hwidth, List.cons_append, List.nil_append, actionsLength, hop, Op.code, List.drop_succ_cons,
        List.drop_zero, ih, List.length_cons, List.length_nil]
      rw [if_pos (by decide)]

/-- R168: a plan's bytes, from the control byte on, are as many as its control byte, repeat flag and ops call for. -/
theorem planShape_planBytes (front : List Byte) {rep : Option Repeat} {as : List Action} (h : PlanOk rep as) :
    planShape front.length (front ++ planBytes rep as) = .taken (front ++ planBytes rep as) := by
  obtain ⟨h1, h4, -, -⟩ := h
  obtain ⟨-, hflag, hcount⟩ := (controlByte_eq_iff rep as.length _ h1 h4).1 rfl
  unfold planShape
  rw [List.drop_left]
  unfold planBytes
  dsimp only
  rw [hcount, if_neg (by omega), if_neg (by omega), hflag]
  refine exactly_of_length _ _ ?_
  have hdrop : (repeatBytes rep ++ actionsBytes as).drop (if rep.isSome then 3 else 0) = actionsBytes as := by
    rw [← length_repeatBytes, List.drop_left]
  rw [hdrop, actionsLength_actionsBytes, List.length_append, List.length_cons, List.length_append, length_repeatBytes]
  omega

/-- R26, R168: the argument bytes of a SEND that carry a CUE are complete. -/
theorem sendShape_cue {handle mode number : Byte} {fields : List Byte} {b : CueBody} (h : parseCue (0 :: fields) = some b) :
    sendShape (handle :: 2 :: mode :: number :: fields) = .taken (handle :: 2 :: mode :: number :: fields) := by
  obtain ⟨hok, hbytes⟩ := (parseCue_eq_some_iff _ b).1 h
  obtain ⟨hplan, -⟩ := b.ok_iff.1 hok
  obtain ⟨-, hfields⟩ := List.cons.inj hbytes
  subst hfields
  exact planShape_planBytes (handle :: 2 :: mode :: number :: bytes4 b.fireTime) hplan

theorem synced_of {s : State} (h : s.clock.state ≠ .unsynced) : ¬s.synced = false := by
  rwa [synced_eq_false_iff]

/-- Settles O21: the tests of R126 pass one by one, or the first that fails answers. -/
theorem sendOfACueJoinsTheQueue : Obligations.SendOfACueJoinsTheQueue := by
  unfold Obligations.SendOfACueJoinsTheQueue
  refine ⟨?_, ?_⟩
  · intro s handle mode number fields scope b hs hstate hclock hscope hcue hqueue hserial
    rw [exec_send s _ hs (sendShape_cue hcue), runSend_of_joined hstate, send_cue]
    have hq : ¬s.send.queueRoom = false := by rw [queueRoom_eq_false_iff]; omega
    have hr : ¬s.send.serialRoom = false := by rw [serialRoom_eq_false_iff]; omega
    unfold runSendCue
    rw [if_neg (synced_of hclock), hscope, hcue]
    dsimp only
    rw [if_neg hq, if_neg hr]
    simp only [sendOk, joinCue, joinQueue, newEntry, okWith, byteOf, State.withSend, List.length_append, List.length_singleton]
  · intro s handle mode number fields hs args refused hshape
    have hexec := exec_send s args hs hshape
    refine ⟨fun hl ha => ?_, fun hstate => ?_⟩
    · rw [runSend_of_other hl ha] at hexec
      exact hexec
    rw [runSend_of_joined hstate, send_cue] at hexec
    have answered (st : Status) (h : runSendCue handle mode number fields s = (refusal st, s)) : refused st := by
      rw [h] at hexec
      exact hexec
    refine ⟨fun hclock => answered _ ?_, fun hclock hform => answered _ ?_, fun hclock hscope hcue hroom => answered _ ?_⟩
    · unfold runSendCue
      rw [if_pos ((synced_eq_false_iff s).2 hclock)]
    · unfold runSendCue
      rw [if_neg (synced_of hclock)]
      obtain h | h := hform
      · rw [h]
      · rw [h]
        cases parseScope mode number <;> rfl
    · obtain ⟨scope, hscope⟩ := Option.ne_none_iff_exists'.1 hscope
      obtain ⟨b, hcue⟩ := Option.ne_none_iff_exists'.1 hcue
      unfold runSendCue
      rw [if_neg (synced_of hclock), hscope, hcue]
      dsimp only
      by_cases hq : 8 ≤ s.send.queue.length
      · rw [if_pos ((queueRoom_eq_false_iff _).2 hq)]
      · rw [if_neg (by rwa [queueRoom_eq_false_iff]), if_pos ((serialRoom_eq_false_iff _).2 (hroom.resolve_left hq))]

theorem sendShape_withdraw (handle mode number serial : Byte) :
    sendShape [handle, 1, mode, number, serial] = .taken [handle, 1, mode, number, serial] := rfl

theorem sendShape_message (handle mode number : Byte) {len : Byte} {payload : List Byte} (hlen : len.toNat = payload.length)
    (h : payload.length ≤ 24) :
    sendShape (handle :: 3 :: mode :: number :: len :: payload) = .taken (handle :: 3 :: mode :: number :: len :: payload) := by
  have hbound : ¬Config.bodyMax < len.toNat := by rw [hlen]; exact not_lt.2 h
  have htaken : exactly (5 + len.toNat) (handle :: 3 :: mode :: number :: len :: payload) =
      .taken (handle :: 3 :: mode :: number :: len :: payload) :=
    exactly_of_length _ _ (by simp only [List.length_cons]; omega)
  exact (if_neg hbound).trans htaken

/-- Settles O22: the same walk for a WITHDRAW and a MESSAGE. -/
theorem sendOfAWithdrawOrMessageJoins : Obligations.SendOfAWithdrawOrMessageJoins := by
  unfold Obligations.SendOfAWithdrawOrMessageJoins
  refine ⟨?_, ?_⟩
  · intro s handle mode number serial len payload hs hlen hmax withdraw message
    have hw := exec_send s _ hs (sendShape_withdraw handle mode number serial)
    have hm := exec_send s _ hs (sendShape_message handle mode number hlen hmax)
    refine ⟨fun hl ha => ?_, fun hstate => ?_⟩
    · rw [runSend_of_other hl ha] at hw hm
      exact ⟨hw, hm⟩
    rw [runSend_of_joined hstate, send_withdraw] at hw
    rw [runSend_of_joined hstate, send_message] at hm
    have withdrawn (st : Status) (h : runSendWithdraw handle serial s = (refusal st, s)) : withdraw st := by
      rw [h] at hw
      exact hw
    have messaged (st : Status) (h : runSendMessage handle mode number payload s = (refusal st, s)) : message st := by
      rw [h] at hm
      exact hm
    refine ⟨fun hq => withdrawn _ ?_, fun hq hi => withdrawn _ ?_, fun hform => messaged _ ?_,
      fun hscope hp hq => messaged _ ?_⟩
    · exact if_pos ((queueRoom_eq_false_iff _).2 hq)
    · have hnone : s.send.issued.find? (fun i => i.serial == serial) = none :=
        List.find?_eq_none.2 fun i hmem => by simpa using hi i hmem
      unfold runSendWithdraw
      rw [if_neg (by rw [queueRoom_eq_false_iff]; omega), hnone]
    · unfold runSendMessage
      cases hscope : parseScope mode number with
      | none => rfl
      | some scope => exact if_pos (.inl (hform.resolve_left (by rw [hscope]; simp)))
    · obtain ⟨scope, hscope⟩ := Option.ne_none_iff_exists'.1 hscope
      have hfits : ¬(payload = [] ∨ Config.bodyMax < payload.length) := not_or.2 ⟨hp, not_lt.2 hmax⟩
      unfold runSendMessage
      rw [hscope]
      dsimp only
      rw [if_neg hfits, if_pos ((queueRoom_eq_false_iff _).2 hq)]
  · intro s handle mode number hs hstate hqueue
    have hq : ¬s.send.queueRoom = false := by rw [queueRoom_eq_false_iff]; omega
    refine ⟨fun serial i hfind => ?_, fun scope payload hscope hpos hmax => ?_⟩
    · rw [exec_send s _ hs (sendShape_withdraw ..), runSend_of_joined hstate, send_withdraw]
      unfold runSendWithdraw
      rw [if_neg hq, hfind]
      simp only [sendOk, joinQueue, newEntry, okWith, byteOf, State.withSend, List.length_append, List.length_singleton]
    · have hlen : (BitVec.ofNat 8 payload.length).toNat = payload.length := by
        rw [BitVec.toNat_ofNat]
        omega
      have hfits : ¬(payload = [] ∨ Config.bodyMax < payload.length) :=
        not_or.2 ⟨List.ne_nil_of_length_pos hpos, not_lt.2 hmax⟩
      rw [exec_send s _ hs (sendShape_message handle mode number hlen hmax), runSend_of_joined hstate, send_message]
      unfold runSendMessage
      rw [hscope]
      dsimp only
      rw [if_neg hfits, if_neg hq]
      simp only [sendOk, joinQueue, newEntry, okWith, byteOf, State.withSend, List.length_append, List.length_singleton]

/-! ### PURGE (R135) -/

theorem Station.enables_sendDone (t : Station) : t.enables .sendDone = true := rfl

/-- R172: SEND_DONE records are always enabled: with room for them all, they all enter the queue. -/
theorem Port.pushAll_doneWith (s : State) (t : Station) (p : Port) (o : SendOutcome) (es : List SendEntry)
    (h : p.used + es.length ≤ 16) :
    (p.pushAll t (es.map (s.doneWith o))).notices = p.notices ++ es.map (s.doneWith o) := by
  obtain ⟨hn, -⟩ := p.pushAll_notices t (es.map (s.doneWith o)) (by rwa [List.length_map])
  have hall : (es.map (s.doneWith o)).filter (fun n => t.enables n.cls) = es.map (s.doneWith o) :=
    List.filter_eq_self.2 fun n hmem => by
      obtain ⟨e, -, rfl⟩ := List.mem_map.1 hmem
      exact t.enables_sendDone
  rw [hn, hall]

theorem exec_purge (s : State) (hs : s.Ready) : exec .purge s = .next (answerCommand (some .purge) (runPurge s).1 (runPurge s).2) :=
  congrArg Host.Outcome.next (hostCommand_of_ready .purge runPurge s hs)

/-- Settles O24: PURGE is one run of SEND_DONE notices after the queue is cut. -/
theorem purgeEndsQueuedEntries : Obligations.PurgeEndsQueuedEntries := by
  unfold Obligations.PurgeEndsQueuedEntries
  intro s hs hstate
  have hexec := exec_purge s hs
  unfold runPurge at hexec
  rw [if_neg hstate] at hexec
  dsimp only at hexec
  rw [purge_eq_notifyAll, notifyAll_eq] at hexec
  refine ⟨_, hexec, rfl, rfl, rfl, rfl, rfl, rfl, rfl, rfl, rfl, rfl, ?_⟩
  intro offered ends
  have hends : ends (purgedEntries s.send.queue) (purgedQueue s.send.queue) :=
    ⟨rfl, rfl, fun hroom => Port.pushAll_doneWith s _ _ _ _ hroom⟩
  cases hq : s.send.queue with
  | nil =>
    rw [hq] at hends
    exact hends
  | cons e rest =>
    rw [hq] at hends
    refine ⟨fun hf => ?_, fun hf => ?_⟩
    · rwa [purgedEntries, purgedQueue, if_pos hf, if_pos hf] at hends
    · rwa [purgedEntries, purgedQueue, if_neg (by rw [hf]; simp), if_neg (by rw [hf]; simp)] at hends

end Sys2Proof.Machine
end

section
/-! SUPPORT. The offers on an idle line (R85, R131). -/

namespace Sys2Proof.Machine

theorem inLeadWindow_iff (minLead : Nat) (fire now : Time) :
    inLeadWindow minLead fire now = true ↔ distance fire now < minLead ∨ 2 ^ 31 ≤ distance fire now := by
  unfold inLeadWindow
  rw [Bool.or_eq_true, decide_eq_true_iff, decide_eq_true_iff]

theorem State.mayOffer_iff (s : State) : s.mayOffer = true ↔ s.station.state = .active ∧ s.line.state = .idle := by
  simp [State.mayOffer]

theorem State.headOfferDue_iff (s : State) : s.headOfferDue = true ↔
    s.mayOffer = true ∧ s.send.slot = .empty ∧ s.send.headQueued = true ∧ s.send.offered = .none := by
  simp [State.headOfferDue, and_assoc]

theorem State.beaconOfferDue_iff (s : State) : s.beaconOfferDue = true ↔
    s.mayOffer = true ∧ s.send.slot = .queued ∧ s.send.offered ≠ .beacon := by
  simp [State.beaconOfferDue, and_assoc]

/-- R131: a queue whose head is not QUEUED is checked no further. -/
theorem offerQueue_of_not_headQueued (n : Nat) {s : State} (h : s.send.headQueued = false) : offerQueue n s = s := by
  cases n with
  | zero => rfl
  | succ n =>
    unfold offerQueue
    cases hq : s.send.queue with
    | nil => rfl
    | cons e rest =>
      have hf : e.inFlight = true := by simpa [SendUnit.headQueued, hq] using h
      exact if_pos hf

/-- R131: what the check answers for a queued head decides the offer. -/
theorem offerQueue_of_failed (n : Nat) {s : State} {e : SendEntry} {rest : List SendEntry} {o : SendOutcome}
    (hq : s.send.queue = e :: rest) (hf : e.inFlight = false) (h : preAttempt e s = some o) :
    offerQueue (n + 1) s = offerQueue n (endEntry o e (s.withSend { s.send with queue := rest })) := by
  rw [offerQueue, hq]
  dsimp only
  rw [if_neg (by rw [hf]; simp), h]

theorem offerQueue_of_passed (n : Nat) {s : State} {e : SendEntry} {rest : List SendEntry} (hq : s.send.queue = e :: rest)
    (hf : e.inFlight = false) (h : preAttempt e s = none) :
    offerQueue (n + 1) s = s.withSend { s.send with offered := .head } := by
  rw [offerQueue, hq]
  dsimp only
  rw [if_neg (by rw [hf]; simp), h]

section
variable {s : State} {e : SendEntry} {rest : List SendEntry} (hwork : s.work = Work.none) (hactive : s.station.state = .active)
  (hidle : s.line.state = .idle) (hslot : s.send.slot = .empty) (hoffered : s.send.offered = .none)
  (hq : s.send.queue = e :: rest) (hf : e.inFlight = false)
include hwork hactive hidle hslot hoffered hq hf

theorem exec_offerHead : exec .offerHead s = .next (offerQueue (rest.length + 2) s) := by
  have hdue : s.headOfferDue = true :=
    s.headOfferDue_iff.2 ⟨s.mayOffer_iff.2 ⟨hactive, hidle⟩, hslot, by rw [SendUnit.headQueued, hq]; simp [hf], hoffered⟩
  change Host.Outcome.next (offerHead (finishWork s)) = _
  rw [finishWork_of_none s hwork, offerHead, if_pos hdue, hq]
  rfl

theorem exec_offerHead_of_passed (hpass : preAttempt e s = none) :
    exec .offerHead s = .next (s.withSend { s.send with offered := .head }) := by
  rw [exec_offerHead hwork hactive hidle hslot hoffered hq hf, offerQueue_of_passed _ hq hf hpass]

/-- R131: an entry that fails its check ends, and the next one is checked as if it had been the head. -/
theorem exec_offerHead_of_failed {o : SendOutcome} (hfail : preAttempt e s = some o) :
    exec .offerHead s = exec .offerHead (endEntry o e (s.withSend { s.send with queue := rest })) := by
  rw [exec_offerHead hwork hactive hidle hslot hoffered hq hf, offerQueue_of_failed _ hq hf hfail]
  have hwork' : (endEntry o e (s.withSend { s.send with queue := rest })).work = Work.none := hwork
  change _ = Host.Outcome.next (offerHead (finishWork _))
  rw [finishWork_of_none _ hwork', offerHead]
  split
  · rfl
  · next hdue =>
    refine congrArg _ (offerQueue_of_not_headQueued _ ?_)
    rw [State.headOfferDue_iff] at hdue
    rw [← Bool.not_eq_true]
    exact fun h => hdue ⟨(State.mayOffer_iff _).2 ⟨hactive, hidle⟩, hslot, h, hoffered⟩

end

/-- Settles O25: the check of the head, and one step of the walk along the queue. -/
theorem offersOnAnIdleLine : Obligations.OffersOnAnIdleLine := by
  unfold Obligations.OffersOnAnIdleLine
  refine ⟨?_, ?_⟩
  · intro s e rest hwork hactive hidle hslot hoffered hq hf
    refine ⟨fun hpass => ?_, fun hcue hclock => ?_, fun hcue hclock hwindow => ?_⟩
    · refine exec_offerHead_of_passed hwork hactive hidle hslot hoffered hq hf ?_
      unfold preAttempt
      rcases hpass with hkind | ⟨hclock, hlead, hhalf⟩
      · rw [if_neg hkind]
      · have hout : ¬inLeadWindow s.station.setup.minLead (bodyFireTime e.body) s.clock.lineTime = true := by
          rw [inLeadWindow_iff]
          omega
        rw [if_neg hclock, if_neg hout, ite_self]
    · refine exec_offerHead_of_failed hwork hactive hidle hslot hoffered hq hf ?_
      unfold preAttempt
      rw [if_pos hcue, if_pos hclock]
    · refine exec_offerHead_of_failed hwork hactive hidle hslot hoffered hq hf ?_
      unfold preAttempt
      rw [if_pos hcue, if_neg hclock, if_pos ((inLeadWindow_iff ..).2 hwindow)]
  · intro s hwork hactive hidle hslot
    change Host.Outcome.next (offerBeacon (finishWork s)) = _
    rw [finishWork_of_none s hwork, offerBeacon]
    split
    · rfl
    · next hdue =>
      have hoffered : s.send.offered = .beacon := by
        by_contra hne
        exact hdue (s.beaconOfferDue_iff.2 ⟨s.mayOffer_iff.2 ⟨hactive, hidle⟩, hslot, hne⟩)
      rw [← hoffered]
      rfl

end Sys2Proof.Machine
end

section
/-! SUPPORT. Transactions on the host port (R167 to R169). -/

namespace Sys2Proof.Machine

/-! ### Owners act alike in every phase of the port -/

/-- The port record at another phase of its transaction. -/
def State.atPhase (s : State) (phase : Phase) : State := s.withPort { s.port with phase := phase }

section
variable (s : State) (phase : Phase)

@[simp] theorem State.atPhase_station : (s.atPhase phase).station = s.station := rfl
@[simp] theorem State.atPhase_clock : (s.atPhase phase).clock = s.clock := rfl
@[simp] theorem State.atPhase_cues : (s.atPhase phase).cues = s.cues := rfl
@[simp] theorem State.atPhase_points : (s.atPhase phase).points = s.points := rfl
@[simp] theorem State.atPhase_send : (s.atPhase phase).send = s.send := rfl
@[simp] theorem State.atPhase_inputs : (s.atPhase phase).inputs = s.inputs := rfl
@[simp] theorem State.atPhase_synced : (s.atPhase phase).synced = s.synced := rfl
@[simp] theorem State.atPhase_peer (id : Byte) : (s.atPhase phase).peer id = s.peer id := rfl
@[simp] theorem State.atPhase_settled : (s.atPhase phase).settled = s.settled := rfl

@[simp] theorem answerCommand_atPhase (name : Option CommandName) (r : Response) :
    answerCommand name r (s.atPhase phase) = answerCommand name r s := rfl

theorem Port.push_atPhase (p : Port) (enabled : Bool) (n : Notice) :
    ({ p with phase := phase } : Port).push enabled n = { p.push enabled n with phase := phase } := by
  unfold Port.push
  cases enabled with
  | false => rfl
  | true =>
    simp only [if_true]
    change (if (p.mark n.cls.index).hasFree = true then _ else _) = _
    split <;> rfl

theorem notify_atPhase (n : Notice) : notify n (s.atPhase phase) = (notify n s).atPhase phase :=
  congrArg s.withPort (Port.push_atPhase phase s.port _ n)

end

/-- What an owner does with a command does not ask for the phase of the transaction that brings it, and touches no pin. -/
structure PhaseBlind (run : List Byte → State → Response × State) : Prop where
  pins : ∀ xs s, (run xs s).2.pins = s.pins
  blind : ∀ xs s phase, run xs (s.atPhase phase) = ((run xs s).1, (run xs s).2.atPhase phase)

/-- An answer that reads what the phase does not touch, and changes nothing. -/
theorem phaseBlind_answer {r : List Byte → State → Response} (h : ∀ xs s phase, r xs (s.atPhase phase) = r xs s) :
    PhaseBlind (fun xs s => (r xs s, s)) where
  pins _ _ := rfl
  blind xs s phase := congrArg (fun x => (x, s.atPhase phase)) (h xs s phase)

/-- A test of what the phase does not touch, before two such meanings. -/
theorem PhaseBlind.ite {f g : List Byte → State → Response × State} {c : List Byte → State → Prop} [∀ xs s, Decidable (c xs s)]
    (hc : ∀ xs s phase, c xs (s.atPhase phase) = c xs s) (hf : PhaseBlind f) (hg : PhaseBlind g) :
    PhaseBlind (fun xs s => if c xs s then f xs s else g xs s) where
  pins xs s := by
    split
    · exact hf.pins xs s
    · exact hg.pins xs s
  blind xs s phase := by
    by_cases h : c xs s
    · have h' : c xs (s.atPhase phase) := by rwa [hc]
      rw [if_pos h, if_pos h', hf.blind]
    · have h' : ¬c xs (s.atPhase phase) := by rwa [hc]
      rw [if_neg h, if_neg h', hg.blind]

theorem phaseBlind_runSetup : PhaseBlind runSetup :=
  .ite (fun _ _ _ => rfl) (phaseBlind_answer fun _ _ _ => rfl)
    { pins := fun xs s => by cases parseSetup xs <;> rfl, blind := fun xs s phase => by cases parseSetup xs <;> rfl }

theorem phaseBlind_runSetPoints (f g : List Byte → Word16) : PhaseBlind (fun xs => runSetPoints (f xs) (g xs)) :=
  .ite (fun _ _ _ => rfl) (phaseBlind_answer fun _ _ _ => rfl) { pins := fun _ _ => rfl, blind := fun _ _ _ => rfl }

theorem phaseBlind_runListCue (f : List Byte → Byte) : PhaseBlind (fun xs => runListCue (f xs)) :=
  .ite (fun _ _ _ => rfl) (phaseBlind_answer fun _ _ _ => rfl)
    { pins := fun xs s => by cases s.cues.armed[(f xs).toNat]? <;> rfl,
      blind := fun xs s phase => by
        simp only [State.atPhase_cues, State.atPhase_clock]
        cases s.cues.armed[(f xs).toNat]? <;> rfl }

theorem phaseBlind_runPeer (f : List Byte → Byte) : PhaseBlind (fun xs => runPeer (f xs)) :=
  .ite (fun _ _ _ => rfl) (phaseBlind_answer fun _ _ _ => rfl) (.ite (fun _ _ _ => rfl) (phaseBlind_answer fun _ _ _ => rfl)
    (.ite (fun _ _ _ => rfl) (phaseBlind_answer fun _ _ _ => rfl) (phaseBlind_answer fun _ _ _ => rfl)))

theorem phaseBlind_runDropCue (f g : List Byte → Byte) : PhaseBlind (fun xs => runDropCue (f xs) (g xs)) :=
  .ite (fun _ _ _ => rfl) (phaseBlind_answer fun _ _ _ => rfl) (.ite (fun _ _ _ => rfl) (phaseBlind_answer fun _ _ _ => rfl)
    (.ite (fun _ _ _ => rfl) (phaseBlind_answer fun _ _ _ => rfl)
      { pins := fun xs s => by cases s.cues.findArmed ⟨f xs, g xs⟩ <;> rfl,
        blind := fun xs s phase => by
          simp only [State.atPhase_cues]
          cases s.cues.findArmed ⟨f xs, g xs⟩ with
          | none => rfl
          | some e => exact congrArg (Prod.mk _) (notify_atPhase (s.withCues _) phase _) }))

theorem phaseBlind_readCaptureAt (i : Fin 4) : PhaseBlind (fun _ => readCaptureAt i) where
  pins _ s := by
    unfold readCaptureAt
    dsimp only
    split <;> rfl
  blind _ s phase := by
    unfold readCaptureAt
    simp only [State.atPhase_inputs]
    split <;> rfl

theorem phaseBlind_runReadCapture (f : List Byte → Byte) : PhaseBlind (fun xs => runReadCapture (f xs)) :=
  .ite (fun _ _ _ => rfl) (phaseBlind_answer fun _ _ _ => rfl)
    { pins := fun xs s => by
        split
        · exact (phaseBlind_readCaptureAt _).pins xs s
        · rfl
      blind := fun xs s phase => by
        split
        · exact (phaseBlind_readCaptureAt _).blind xs s phase
        · rfl }

theorem phaseBlind_loadTemplate : PhaseBlind loadTemplate where
  pins xs s := by
    unfold loadTemplate putTemplate
    repeat (first | rfl | split)
  blind xs s phase := by
    unfold loadTemplate
    split
    · rename_i input mode number l1 l0 control rest
      by_cases hi : input.toNat < 4
      · rw [dif_pos hi, dif_pos hi]
        by_cases hc : control.extractLsb' 0 3 = 0
        · rw [if_pos hc, if_pos hc]
          rfl
        · rw [if_neg hc, if_neg hc]
          cases parseScope mode number with
          | none => rfl
          | some scope =>
            by_cases hl : (word2 l1 l0).toNat < s.station.setup.minLead
            · have hl' : (word2 l1 l0).toNat < (s.atPhase phase).station.setup.minLead := hl
              dsimp only
              rw [if_pos hl, if_pos hl']
            · have hl' : ¬(word2 l1 l0).toNat < (s.atPhase phase).station.setup.minLead := hl
              dsimp only
              rw [if_neg hl, if_neg hl']
              cases parseCue (0 :: (bytes4 0 ++ control :: rest)) <;> rfl
      · rw [dif_neg hi, dif_neg hi]
    · rfl

theorem phaseBlind_runLoadTrigger : PhaseBlind runLoadTrigger where
  pins xs s := by
    unfold runLoadTrigger
    cases s.station.state with
    | halted | silent => rfl
    | setup | listen | active => exact phaseBlind_loadTemplate.pins xs s
  blind xs s phase := by
    unfold runLoadTrigger
    rw [State.atPhase_station]
    cases s.station.state with
    | halted | silent => rfl
    | setup | listen | active => exact phaseBlind_loadTemplate.blind xs s phase

theorem phaseBlind_runSendCue (handle mode number : Byte) (fields : List Byte) :
    PhaseBlind (fun _ => runSendCue handle mode number fields) :=
  have joins (scope : Scope) : PhaseBlind (fun _ s => if s.send.queueRoom = false then (refusal .full, s)
      else if s.send.serialRoom = false then (refusal .full, s)
      else sendOk s.send.nextSerial (joinCue handle .host scope fields s)) :=
    .ite (fun _ _ _ => rfl) (phaseBlind_answer fun _ _ _ => rfl)
      (.ite (fun _ _ _ => rfl) (phaseBlind_answer fun _ _ _ => rfl) { pins := fun _ _ => rfl, blind := fun _ _ _ => rfl })
  .ite (fun _ _ _ => rfl) (phaseBlind_answer fun _ _ _ => rfl)
    { pins := fun xs s => by
        cases parseScope mode number with
        | none => rfl
        | some scope =>
          cases parseCue (0 :: fields) with
          | none => rfl
          | some b => exact (joins scope).pins xs s
      blind := fun xs s phase => by
        cases parseScope mode number with
        | none => rfl
        | some scope =>
          cases parseCue (0 :: fields) with
          | none => rfl
          | some b => exact (joins scope).blind xs s phase }

theorem phaseBlind_runSendWithdraw (handle serial : Byte) : PhaseBlind (fun _ => runSendWithdraw handle serial) :=
  .ite (fun _ _ _ => rfl) (phaseBlind_answer fun _ _ _ => rfl)
    { pins := fun xs s => by cases s.send.issued.find? (fun i => i.serial == serial) <;> rfl
      blind := fun xs s phase => by
        simp only [State.atPhase_send]
        cases s.send.issued.find? (fun i => i.serial == serial) <;> rfl }

theorem phaseBlind_runSendMessage (handle mode number : Byte) (payload : List Byte) :
    PhaseBlind (fun _ => runSendMessage handle mode number payload) :=
  have joins (scope : Scope) : PhaseBlind (fun _ s => if payload = [] ∨ Config.bodyMax < payload.length then (refusal .form, s)
      else if s.send.queueRoom = false then (refusal .full, s)
      else sendOk 0 (joinQueue (newEntry s handle .host .message scope payload none) s)) :=
    .ite (fun _ _ _ => rfl) (phaseBlind_answer fun _ _ _ => rfl)
      (.ite (fun _ _ _ => rfl) (phaseBlind_answer fun _ _ _ => rfl) { pins := fun _ _ => rfl, blind := fun _ _ _ => rfl })
  { pins := fun xs s => by
      unfold runSendMessage
      cases parseScope mode number with
      | none => rfl
      | some scope => exact (joins scope).pins xs s
    blind := fun xs s phase => by
      unfold runSendMessage
      cases parseScope mode number with
      | none => rfl
      | some scope => exact (joins scope).blind xs s phase }

theorem phaseBlind_send : PhaseBlind runSend.send where
  pins xs s := by
    unfold runSend.send
    split
    · split
      · exact (phaseBlind_runSendCue ..).pins [] s
      · split
        · exact (phaseBlind_runSendWithdraw ..).pins [] s
        · exact (phaseBlind_runSendMessage ..).pins [] s
    · rfl
  blind xs s phase := by
    unfold runSend.send
    split
    · split
      · exact (phaseBlind_runSendCue ..).blind [] s phase
      · split
        · exact (phaseBlind_runSendWithdraw ..).blind [] s phase
        · exact (phaseBlind_runSendMessage ..).blind [] s phase
    · rfl

theorem phaseBlind_runSend : PhaseBlind runSend where
  pins xs s := by
    unfold runSend
    cases s.station.state with
    | halted | silent | setup => rfl
    | listen | active => exact phaseBlind_send.pins xs s
  blind xs s phase := by
    unfold runSend
    rw [State.atPhase_station]
    cases s.station.state with
    | halted | silent | setup => rfl
    | listen | active => exact phaseBlind_send.blind xs s phase

end Sys2Proof.Machine
end

section
/-! SUPPORT. Transactions byte by byte (R167 to R169, R173, R182). -/

namespace Sys2Proof.Machine

/-! ### The byte that names a command -/

theorem namedBy_code (name : CommandName) : namedBy name.code = some name := by cases name <;> rfl

theorem namedBy_eq_none {code : Byte} (h : ∀ name : CommandName, name.code ≠ code) : namedBy code = none :=
  List.find?_eq_none.2 fun name _ => by simpa using h name

/-! ### Commands with arguments -/

theorem exactly_eq_taken_iff (n : Nat) (args xs : List Byte) : exactly n args = .taken xs ↔ n ≤ args.length ∧ xs = args.take n := by
  unfold exactly
  split
  · next h => exact ⟨fun h' => (nomatch h'), fun h' => absurd h'.1 (not_le.2 h)⟩
  · next h => exact ⟨fun h' => ⟨not_lt.1 h, (Shape.taken.inj h').symm⟩, fun h' => by rw [h'.2]⟩

theorem exactly_zero (args : List Byte) : exactly 0 args = .taken [] := by
  rw [exactly_eq_taken_iff]
  exact ⟨Nat.zero_le _, rfl⟩

/-- A command either calls for no argument byte, or is collected to its shape and then handed to an owner that does not ask for the
phase. -/
theorem commandRow_cases (straps : Straps) (name : CommandName) :
    argumentShape name = exactly 0 ∨ ∃ run, PhaseBlind run ∧ ∀ args s,
      exec (commandRow straps name args) s = .next (shapedCommand name (argumentShape name) run args s) := by
  cases name with
  | join | leave | restart | purge | nextNotice | status | time | getPoints => exact .inl rfl
  | setup => exact .inr ⟨_, phaseBlind_runSetup, fun _ _ => rfl⟩
  | send => exact .inr ⟨_, phaseBlind_runSend, fun _ _ => rfl⟩
  | loadTrigger => exact .inr ⟨_, phaseBlind_runLoadTrigger, fun _ _ => rfl⟩
  | listCue => exact .inr ⟨_, phaseBlind_runListCue (byteAt · 0), fun _ _ => rfl⟩
  | readCapture => exact .inr ⟨_, phaseBlind_runReadCapture (byteAt · 0), fun _ _ => rfl⟩
  | peer => exact .inr ⟨_, phaseBlind_runPeer (byteAt · 0), fun _ _ => rfl⟩
  | setPoints =>
    refine .inr ⟨_, phaseBlind_runSetPoints (fun xs => word2 (byteAt xs 0) (byteAt xs 1))
      (fun xs => word2 (byteAt xs 2) (byteAt xs 3)), fun args s => ?_⟩
    change Host.Outcome.next (shapedCommand .setPoints _ _ (args.take 2 ++ args.drop 2) s) = _
    rw [List.take_append_drop]
    rfl
  | dropCue =>
    refine .inr ⟨_, phaseBlind_runDropCue (byteAt · 0) (byteAt · 1), fun args s => ?_⟩
    change Host.Outcome.next (shapedCommand .dropCue _ _ (args.take 1 ++ args.drop 1) s) = _
    rw [List.take_append_drop]
    rfl

theorem takesCommand_of_command {s : State} (hreset : s.inReset = false) (hphase : s.port.phase = .command) :
    s.takesCommand = true := by
  simp [State.takesCommand, hreset, hphase]

section
variable {s : State} (hsettled : s.settled = true) (hreset : s.inReset = false)
include hsettled hreset

/-- R167: a row that leaves argument bytes missing. -/
theorem shapedCommand_collecting (name : CommandName) {shape : List Byte → Shape} (run : List Byte → State → Response × State)
    {args : List Byte} {n : Nat} (hncs : s.pins.ncs = .low) (hphase : s.port.phase = .command) (hshape : shape args = .collecting n) :
    shapedCommand name shape run args s = s.withPort { s.port with
      phase := .arguments, command := some name, argsExpected := n, args := args, response := none, shifted := 0 } := by
  have hready : s.Ready := ⟨hsettled, takesCommand_of_command hreset hphase⟩
  unfold shapedCommand
  simp only [hready.settle_eq, hready.collected_eq, List.nil_append, hshape]
  exact if_pos hncs

/-- R167: further argument bytes act as if they had come with those collected. -/
theorem shapedCommand_continued (name : CommandName) (shape : List Byte → Shape) {run : List Byte → State → Response × State}
    (hrun : PhaseBlind run) (more : List Byte) (hphase : s.port.phase = .arguments) (hname : s.port.command = some name) :
    shapedCommand name shape run more s = shapedCommand name shape run (s.port.args ++ more) (s.atPhase .command) := by
  have hsettled' : (s.atPhase .command).settled = true := hsettled
  have htakes : (s.atPhase .command).takesCommand = true := takesCommand_of_command hreset rfl
  have hcollected : s.collected name = some s.port.args := State.collected_of_arguments name s hreset hphase hname
  have hready : (s.atPhase .command).Ready := ⟨hsettled', htakes⟩
  unfold shapedCommand
  simp only [settle_of_settled s hsettled, hready.settle_eq, hready.collected_eq, hcollected, List.nil_append]
  cases shape (s.port.args ++ more) with
  | taken xs => simp only [hrun.blind, answerCommand_atPhase]
  | refused used => rfl
  | collecting n => rfl

end

/-! ### Bytes after the command was taken -/

theorem exec_unknownCommand_of_closed {s : State} (hsettled : s.settled = true) (htakes : s.takesCommand = false) (code : Byte) :
    exec (.unknownCommand code) s = .next (ignoreBytes 1 s) := by
  change Host.Outcome.next (if (settle s).takesCommand then _ else ignoreBytes 1 (settle s)) = _
  rw [settle_of_settled s hsettled, htakes]
  rfl

/-- R167: where the port takes no command and collects no arguments, a host command's bytes are clocked and ignored. -/
theorem exec_of_closed {s : State} {c : Instr} (hsettled : s.settled = true) (htakes : s.takesCommand = false)
    (hphase : s.port.phase ≠ .arguments) (hc : isHostCommand c = true) :
    ∃ n, exec c s = .next (ignoreBytes n s) := by
  have hsettle := settle_of_settled s hsettled
  have bare (name : CommandName) (run : State → Response × State) : hostCommand name run s = ignoreBytes 1 s := by
    unfold hostCommand
    simp only [hsettle, htakes]
    rfl
  have shaped (name : CommandName) (shape : List Byte → Shape) (run : List Byte → State → Response × State) (args : List Byte) :
      shapedCommand name shape run args s = ignoreBytes (1 + args.length) s := by
    have hcollected : s.collected name = none := by simp [State.collected, htakes, hphase]
    unfold shapedCommand
    simp only [hsettle, hcollected]
  cases c with
  | join | leave | restart | purge | nextNotice | status | time | getPoints => exact ⟨1, congrArg _ (bare ..)⟩
  | setup | send | loadTrigger | listCue | readCapture | peer | setPoints | dropCue => exact ⟨_, congrArg _ (shaped ..)⟩
  | unknownCommand code => exact ⟨1, exec_unknownCommand_of_closed hsettled htakes code⟩
  | _ => cases hc

theorem ignoreBytes_of_inReset {s : State} (n : Nat) (h : s.inReset = true) : ignoreBytes n s = s := if_pos h

theorem ignoreBytes_eq_clocked {s : State} (n : Nat) (h : s.inReset = false) : ignoreBytes n s = s.withPort (s.port.clocked n) :=
  if_neg (by rw [h]; simp)

/-- R167: bytes clocked in RESULTS. -/
theorem Port.clocked_of_results {p : Port} {r : Response} (n : Nat) (hphase : p.phase = .results) (hr : p.response = some r) :
    p.clocked n = { p with
      shifted := min (1 + r.results.length) (p.shifted + n)
      phase := if 1 + r.results.length ≤ p.shifted + n then .done else .results } := by
  unfold Port.clocked
  rw [hphase, hr]
  have hlen : r.bytes.length = 1 + r.results.length := Nat.add_comm _ _
  dsimp only
  rw [hlen]

theorem Port.clocked_of_not_results {p : Port} (n : Nat) (hphase : p.phase ≠ .results) : p.clocked n = p := by
  unfold Port.clocked
  split
  · next h _ => exact absurd h hphase
  · rfl

theorem takesCommand_of_phase {s : State} (hc : s.port.phase ≠ .command) (hw : s.port.phase ≠ .waiting) : s.takesCommand = false := by
  simp [State.takesCommand, hc, hw]

/-! ### NCS rises -/

section
variable {s : State} (hsettled : s.settled = true) (hreset : s.inReset = false)
include hsettled hreset

theorem exec_transactionEnd_of_taken (h : s.port.phase = .results ∨ s.port.phase = .done) :
    exec .transactionEnd s =
      .next ((s.withPins { s.pins with ncs := .high }).withPort { s.port with phase := .waiting }) := by
  change execTransactionEnd s = _
  unfold execTransactionEnd
  dsimp only
  rw [settle_of_settled s hsettled, hreset]
  rcases h with h | h <;> rw [h] <;> rfl

theorem exec_transactionCutShort_of_command (bits : Nat) (h : s.port.phase = .command) :
    exec (.transactionCutShort bits) s = .next (cutShort (decide (bits ≠ 0)) (s.withPins { s.pins with ncs := .high })) := by
  change execTransactionCutShort bits s = _
  unfold execTransactionCutShort
  dsimp only
  rw [settle_of_settled s hsettled, hreset, h]
  rfl

theorem exec_transactionCutShort_of_arguments (bits : Nat) (h : s.port.phase = .arguments) :
    exec (.transactionCutShort bits) s = .next (cutShort true (s.withPins { s.pins with ncs := .high })) := by
  change execTransactionCutShort bits s = _
  unfold execTransactionCutShort
  dsimp only
  rw [settle_of_settled s hsettled, hreset, h]
  rfl

end

/-- Settles O29: a transaction, byte by byte. -/
theorem transactionsBeginAndEnd : Obligations.TransactionsBeginAndEnd := by
  unfold Obligations.TransactionsBeginAndEnd
  refine ⟨?_, ?_, ?_, ?_, ?_, ?_, ?_, ?_, ?_, ?_, ?_, ?_⟩
  · intro s hsettled hreset hncs
    change execTransactionBegin s = _
    unfold execTransactionBegin
    dsimp only
    rw [settle_of_settled s hsettled, if_neg (by rw [hreset, hncs]; simp)]
  · intro straps name args
    refine ⟨namedBy_code name, ?_⟩
    unfold commandOfBytes
    dsimp only
    rw [namedBy_code]
  · intro straps code args h
    unfold commandOfBytes knownCode
    dsimp only
    rw [namedBy_eq_none h]
    exact ⟨rfl, rfl⟩
  · intro s code hs hcode
    change execUnknownCommand code s = _
    unfold execUnknownCommand
    dsimp only
    rw [hs.settle_eq, if_pos hs.2, hcode]
    rfl
  · intro s straps name args n hsettled hreset hncs hshape
    obtain hnone | ⟨run, hrun, hexec⟩ := commandRow_cases straps name
    · rw [hnone, exactly_zero] at hshape
      cases hshape
    refine ⟨fun hphase => ?_, fun more hphase hname hargs => ?_⟩
    · rw [hexec, shapedCommand_collecting hsettled hreset name run hncs hphase hshape]
    · rw [hexec, hexec, shapedCommand_continued hsettled hreset name _ hrun more hphase hname, hargs]
      rfl
  · intro s t straps name args more hs hncs hne hshape hlonger ht
    obtain hnone | ⟨run, hrun, hexec⟩ := commandRow_cases straps name
    · rw [hnone, exactly_zero] at hshape
      exact absurd (Shape.taken.inj hshape).symm hne
    rw [hexec, shapedCommand_of_taken name _ run args s hs hshape] at ht
    obtain rfl := Host.Outcome.next.inj ht
    have hlow : (run args s).2.pins.ncs = .low := by rw [hrun.pins]; exact hncs
    refine ⟨if_pos hlow, rfl, ?_⟩
    rw [hexec, shapedCommand_of_prefix name _ run _ args s hs hlonger, trailingBytes_of_low _ _ _ _ hlow, List.length_append,
      Nat.add_sub_cancel_left]
  · intro s r c hsettled hreset hphase hresponse hc
    have htakes : s.takesCommand = false := takesCommand_of_phase (by rw [hphase]; simp) (by rw [hphase]; simp)
    refine ⟨?_, ?_, fun code => ?_⟩
    · unfold Port.miso
      rw [hphase, hresponse]
      rfl
    · obtain ⟨n, hn⟩ := exec_of_closed hsettled htakes (by rw [hphase]; simp) hc
      exact ⟨_, _, by rw [hn, ignoreBytes_eq_clocked n hreset, Port.clocked_of_results n hphase hresponse]⟩
    · rw [exec_unknownCommand_of_closed hsettled htakes, ignoreBytes_eq_clocked 1 hreset,
        Port.clocked_of_results 1 hphase hresponse]
      simp only [Nat.add_comm 1, Nat.add_le_add_iff_right]
  · intro s c hsettled hphase hc
    have htakes : s.takesCommand = false := takesCommand_of_phase (by rw [hphase]; simp) (by rw [hphase]; simp)
    obtain ⟨n, hn⟩ := exec_of_closed hsettled htakes (by rw [hphase]; simp) hc
    rw [hn]
    cases hreset : s.inReset with
    | true => rw [ignoreBytes_of_inReset n hreset]
    | false =>
      rw [ignoreBytes_eq_clocked n hreset, Port.clocked_of_not_results n (by rw [hphase]; simp)]
      rfl
  · intro p hphase
    unfold Port.miso
    split
    · next h _ => exact absurd h hphase
    · rfl
  · exact fun s hsettled hreset h => exec_transactionEnd_of_taken hsettled hreset h
  · intro s bits hsettled hreset h
    rcases h with ⟨hphase, hbits⟩ | hphase
    · rw [exec_transactionCutShort_of_command hsettled hreset bits hphase, decide_eq_true hbits]
      rfl
    · rw [exec_transactionCutShort_of_arguments hsettled hreset bits hphase]
      rfl
  · intro s hsettled hreset hphase
    rw [exec_transactionCutShort_of_command hsettled hreset 0 hphase]
    rfl

end Sys2Proof.Machine
end

section
/-! SUPPORT. Views and trigger inputs: TIME and GET_POINTS (R49, R83), LOAD_TRIGGER and READ_CAPTURE (R144, R146), edges and
emissions (R141, R142, R147 to R150). -/

namespace Sys2Proof.Machine

/-! ### Views -/

theorem exec_time (s : State) (hs : s.Ready) : exec .time s = .next (answerCommand (some .time) (runTime s).1 (runTime s).2) :=
  congrArg Host.Outcome.next (hostCommand_of_ready .time runTime s hs)

theorem exec_getPoints (s : State) (hs : s.Ready) :
    exec .getPoints s = .next (answerCommand (some .getPoints) (runGetPoints s).1 (runGetPoints s).2) :=
  congrArg Host.Outcome.next (hostCommand_of_ready .getPoints runGetPoints s hs)

/-- A run of bits set. -/
theorem getLsbD_foldl_setBit (rs : List Restore) (w : Word16) (i : Fin 16) :
    (rs.foldl (fun w r => setBit w r.point true) w).getLsbD i.val = true ↔ w.getLsbD i.val = true ∨ ∃ r ∈ rs, r.point = i := by
  induction rs generalizing w with
  | nil => simp
  | cons r rs ih =>
    rw [List.foldl_cons, ih, getLsbD_setBit]
    by_cases h : i = r.point
    · simp [h]
    · simp [h, Ne.symm h]

/-- R49: the restore mask has the points with a pending restore. -/
theorem Points.getLsbD_restoreMask (p : Points) (i : Fin 16) :
    p.restoreMask.getLsbD i.val = true ↔ ∃ r ∈ p.pulses, r.point = i := by
  rw [Points.restoreMask, getLsbD_foldl_setBit]
  simp

/-- Settles O30. -/
theorem clockAndPointViews : Obligations.ClockAndPointViews := by
  intro s hs hstate
  refine ⟨?_, s.points.restoreMask, s.points.getLsbD_restoreMask, ?_⟩
  · rw [exec_time s hs, runTime, if_neg hstate]
    rfl
  · rw [exec_getPoints s hs, runGetPoints, if_neg hstate]
    rfl

/-! ### LOAD_TRIGGER -/

/-- A port that takes a command answers LOAD_TRIGGER at its last argument byte. -/
theorem exec_loadTrigger (s : State) (args : List Byte) (hs : s.Ready) (hshape : loadTriggerShape args = .taken args) :
    exec (.loadTrigger args) s =
      .next (answerCommand (some .loadTrigger) (runLoadTrigger args s).1 (runLoadTrigger args s).2) :=
  congrArg Host.Outcome.next (shapedCommand_of_taken .loadTrigger loadTriggerShape runLoadTrigger args s hs hshape)

theorem runLoadTrigger_of_open {s : State} (h : s.station.state ≠ .halted) (h' : s.station.state ≠ .silent) (args : List Byte) :
    runLoadTrigger args s = loadTemplate args s := by
  unfold runLoadTrigger
  cases hs : s.station.state with
  | halted => exact absurd hs h
  | silent => exact absurd hs h'
  | setup | listen | active => rfl

theorem runLoadTrigger_of_shut {s : State} (h : s.station.state = .halted ∨ s.station.state = .silent) (args : List Byte) :
    runLoadTrigger args s = (refusal .wrongState, s) := by
  unfold runLoadTrigger
  rcases h with h | h <;> rw [h]

/-- R146: an action count of 0 ends the arguments at the control byte. -/
theorem loadTriggerShape_clearing (input mode number l1 l0 : Byte) {control : Byte} (h : control.extractLsb' 0 3 = 0) :
    loadTriggerShape [input, mode, number, l1, l0, control] = .taken [input, mode, number, l1, l0, control] := by
  have hcount : (control.extractLsb' 0 3).toNat = 0 := by rw [h]; rfl
  change (if 4 < (control.extractLsb' 0 3).toNat then Shape.refused 6
    else if (control.extractLsb' 0 3).toNat = 0 then .taken _ else _) = _
  rw [if_neg (by omega), if_pos hcount]
  rfl

/-- R26, R146: the argument bytes that carry a plan are complete. -/
theorem loadTriggerShape_plan (input mode number l1 l0 : Byte) {plan : List Byte} {b : CueBody}
    (h : parseCue (0 :: 0 :: 0 :: 0 :: 0 :: plan) = some b) :
    plan = planBytes b.rep b.actions ∧ (∃ control rest, plan = control :: rest ∧ control.extractLsb' 0 3 ≠ 0) ∧
      loadTriggerShape (input :: mode :: number :: l1 :: l0 :: plan) = .taken (input :: mode :: number :: l1 :: l0 :: plan) := by
  obtain ⟨hok, hbytes⟩ := (parseCue_eq_some_iff _ b).1 h
  obtain ⟨hplan, -⟩ := b.ok_iff.1 hok
  have hplanBytes : plan = planBytes b.rep b.actions := by
    simpa [encodeCue, bytes4] using (congrArg (List.drop 5) hbytes).symm
  obtain ⟨h1, h4, -, -⟩ := id hplan
  obtain ⟨-, -, hcount⟩ := (controlByte_eq_iff b.rep b.actions.length _ h1 h4).1 rfl
  refine ⟨hplanBytes, ⟨_, _, hplanBytes, fun h0 => ?_⟩, ?_⟩
  · rw [h0] at hcount
    exact absurd hcount (Nat.ne_of_lt h1)
  · rw [hplanBytes]
    exact planShape_planBytes [input, mode, number, l1, l0] hplan

theorem toNat_inputByte (i : Fin 4) : (BitVec.ofNat 8 i.val).toNat = i.val := by
  rw [BitVec.toNat_ofNat]
  omega

section
variable (i : Fin 4) (mode number l1 l0 control : Byte) (rest : List Byte) (s : State)

theorem loadTemplate_clearing (h : control.extractLsb' 0 3 = 0) :
    loadTemplate (BitVec.ofNat 8 i.val :: mode :: number :: l1 :: l0 :: control :: rest) s = putTemplate i none s := by
  have hi : (BitVec.ofNat 8 i.val).toNat < 4 := by rw [toNat_inputByte]; exact i.isLt
  have hfin : (⟨(BitVec.ofNat 8 i.val).toNat, hi⟩ : Fin 4) = i := Fin.ext (toNat_inputByte i)
  unfold loadTemplate
  dsimp only
  rw [dif_pos hi, if_pos h, hfin]

theorem loadTemplate_loading {scope : Scope} {b : CueBody} (h : control.extractLsb' 0 3 ≠ 0)
    (hscope : parseScope mode number = some scope) (hlead : s.station.setup.minLead ≤ (word2 l1 l0).toNat)
    (hbody : parseCue (0 :: 0 :: 0 :: 0 :: 0 :: control :: rest) = some b) :
    loadTemplate (BitVec.ofNat 8 i.val :: mode :: number :: l1 :: l0 :: control :: rest) s =
      putTemplate i (some ⟨scope, word2 l1 l0, b.rep, b.actions⟩) s := by
  have hi : (BitVec.ofNat 8 i.val).toNat < 4 := by rw [toNat_inputByte]; exact i.isLt
  have hfin : (⟨(BitVec.ofNat 8 i.val).toNat, hi⟩ : Fin 4) = i := Fin.ext (toNat_inputByte i)
  have hbody' : parseCue (0 :: (bytes4 0 ++ control :: rest)) = some b := hbody
  unfold loadTemplate
  dsimp only
  rw [dif_pos hi, if_neg h, hscope]
  dsimp only
  rw [if_neg (not_lt.2 hlead), hbody', hfin]

end

theorem loadTemplate_of_badInput {input : Byte} (h : 4 ≤ input.toNat) (mode number l1 l0 control : Byte) (rest : List Byte) (s : State) :
    loadTemplate (input :: mode :: number :: l1 :: l0 :: control :: rest) s = (refusal .form, s) := dif_neg (not_lt.2 h)

theorem loadTemplate_of_badFields (input : Byte) {mode number l1 l0 control : Byte} {rest : List Byte} {s : State}
    (hcount : control.extractLsb' 0 3 ≠ 0)
    (h : parseScope mode number = none ∨ (word2 l1 l0).toNat < s.station.setup.minLead ∨
      parseCue (0 :: 0 :: 0 :: 0 :: 0 :: control :: rest) = none) :
    loadTemplate (input :: mode :: number :: l1 :: l0 :: control :: rest) s = (refusal .form, s) := by
  by_cases hi : input.toNat < 4
  · unfold loadTemplate
    dsimp only
    rw [dif_pos hi, if_neg hcount]
    cases hscope : parseScope mode number with
    | none => rfl
    | some scope =>
      dsimp only
      by_cases hlead : (word2 l1 l0).toNat < s.station.setup.minLead
      · rw [if_pos hlead]
      · have hbody : parseCue (0 :: (bytes4 0 ++ control :: rest)) = none :=
          (h.resolve_left (by rw [hscope]; simp)).resolve_left hlead
        rw [if_neg hlead, hbody]
  · exact dif_neg hi

theorem putTemplate_eq (i : Fin 4) (t : Option Template) (s : State) : putTemplate i t s =
    (⟨.ok, [BitVec.ofNat 8 i.val, if (fourGet s.inputs i).template = none then 0 else 1]⟩,
      s.withInputs (fourSet s.inputs i { fourGet s.inputs i with template := t })) := by
  have hbyte (o : Option Template) : boolByte o.isSome = if o = none then 0 else 1 := by cases o <;> rfl
  rw [← hbyte]
  rfl

/-! ### READ_CAPTURE -/

theorem exec_readCapture (s : State) (input : Byte) (hs : s.Ready) : exec (.readCapture [input]) s =
    .next (answerCommand (some .readCapture) (runReadCapture input s).1 (runReadCapture input s).2) :=
  congrArg Host.Outcome.next
    (shapedCommand_of_taken .readCapture (exactly 1) (fun xs => runReadCapture (byteAt xs 0)) [input] s hs (exactly_of_length 1 _ rfl))

/-- R140: where no command is refused, the level shown is the pin's in SETUP and the record's after JOIN. -/
theorem levelByte_shownLevel {s : State} (h : s.station.state ≠ .halted) (i : Fin 4) : levelByte (shownLevel s i) =
    if (if s.station.state = .setup then fourGet s.pins.ti i else (fourGet s.inputs i).level) = .high then 1 else 0 := by
  have hbyte (v : Level) : levelByte v = if v = .high then 1 else 0 := by cases v <;> rfl
  rw [hbyte, shownLevel, Station.joined]
  cases hs : s.station.state with
  | halted => exact absurd hs h
  | setup | listen | active | silent => rfl

theorem runReadCapture_at {s : State} (h : s.station.state ≠ .halted) (i : Fin 4) :
    runReadCapture (BitVec.ofNat 8 i.val) s = readCaptureAt i s := by
  have hi : (BitVec.ofNat 8 i.val).toNat < 4 := by rw [toNat_inputByte]; exact i.isLt
  have hfin : (⟨(BitVec.ofNat 8 i.val).toNat, hi⟩ : Fin 4) = i := Fin.ext (toNat_inputByte i)
  rw [runReadCapture, if_neg h, dif_pos hi, hfin]

/-- Settles O36. -/
theorem triggerCommandsActOnOneInput : Obligations.TriggerCommandsActOnOneInput := by
  refine ⟨?_, ?_, ?_, ?_⟩
  · intro s i mode number l1 l0 hs hstate
    have hopen : s.station.state ≠ .halted ∧ s.station.state ≠ .silent := by
      rcases hstate with h | h | h <;> rw [h] <;> exact ⟨by simp, by simp⟩
    refine ⟨fun plan scope b hscope hlead hbody => ?_, fun control hcontrol => ?_⟩
    · obtain ⟨-, ⟨control, rest, rfl, hcount⟩, hshape⟩ := loadTriggerShape_plan (BitVec.ofNat 8 i.val) mode number l1 l0 hbody
      rw [exec_loadTrigger s _ hs hshape, runLoadTrigger_of_open hopen.1 hopen.2,
        loadTemplate_loading i mode number l1 l0 control rest s hcount hscope hlead hbody, putTemplate_eq]
    · rw [exec_loadTrigger s _ hs (loadTriggerShape_clearing _ _ _ _ _ hcontrol), runLoadTrigger_of_open hopen.1 hopen.2,
        loadTemplate_clearing i mode number l1 l0 control [] s hcontrol, putTemplate_eq]
  · intro s input mode number l1 l0 control rest hs args refused hshape
    have hexec := exec_loadTrigger s args hs hshape
    refine ⟨fun h => ?_, fun hhalted hsilent => ⟨fun hinput => ?_, fun hcount h => ?_⟩⟩
    · rw [runLoadTrigger_of_shut h] at hexec
      exact hexec
    · rw [runLoadTrigger_of_open hhalted hsilent, loadTemplate_of_badInput hinput] at hexec
      exact hexec
    · rw [runLoadTrigger_of_open hhalted hsilent, loadTemplate_of_badFields input hcount h] at hexec
      exact hexec
  · intro s input hs
    refine ⟨fun h => ?_, fun h hinput => ?_⟩
    · rw [exec_readCapture s input hs, runReadCapture, if_pos h]
      rfl
    · rw [exec_readCapture s input hs, runReadCapture, if_neg h, dif_neg (not_lt.2 hinput)]
      rfl
  · intro s i hs hstate level emptied
    have hexec := exec_readCapture s (BitVec.ofNat 8 i.val) hs
    have hlevel : levelByte (shownLevel s i) = level := levelByte_shownLevel hstate i
    rw [runReadCapture_at hstate, readCaptureAt] at hexec
    cases hc : (fourGet s.inputs i).capture with
    | held | expired | empty =>
      simp only [hc, captureBytes, hlevel] at hexec
      exact hexec

/-! ### Edges -/

theorem captureEdge_eq (now : Time) (e : Edge) (c : Capture) : captureEdge now e c = caughtAt now e c := by
  cases c <;> rfl

/-- R141: the changes that a selection takes, and the edges they are. -/
theorem edgeOf_eq_some {sel : Selection} {v : Level}
    (h : sel = .both ∨ (sel = .rise ∧ v = .high) ∨ (sel = .fall ∧ v = .low)) :
    edgeOf sel v = some (if v = .high then .rise else .fall) := by
  rcases h with rfl | ⟨rfl, rfl⟩ | ⟨rfl, rfl⟩
  · cases v <;> rfl
  · rfl
  · rfl

theorem edgeOf_eq_none {sel : Selection} {v : Level}
    (h : sel = .off ∨ (sel = .rise ∧ v = .low) ∨ (sel = .fall ∧ v = .high)) : edgeOf sel v = none := by
  rcases h with rfl | ⟨rfl, rfl⟩ | ⟨rfl, rfl⟩ <;> rfl

/-- R141: the station with a change of level seen at its pin and in its input record. -/
def State.levelSeen (s : State) (i : Fin 4) (v : Level) : State :=
  (s.withPins { s.pins with ti := fourSet s.pins.ti i v }).withInputs
    (fourSet s.inputs i { fourGet s.inputs i with level := v })

/-- R142: the station with an edge caught. -/
def State.caught (s : State) (i : Fin 4) (e : Edge) : State :=
  s.withInputs (fourSet s.inputs i
    { fourGet s.inputs i with capture := caughtAt s.clock.lineTime e (fourGet s.inputs i).capture })

section
variable {s : State} {i : Fin 4} {v : Level} (hsettled : s.settled = true) (hreset : s.inReset = false)
  (hjoined : s.station.joined = true) (hlevel : (fourGet s.inputs i).level ≠ v)
include hsettled hreset hjoined hlevel

theorem exec_triggerEdge {o : Option Edge} (h : edgeOf (fourGet s.inputs i).selection v = o) :
    exec (.triggerEdge i v) s = .next (o.elim (s.levelSeen i v) (fun e => takeEdge i e (s.levelSeen i v))) := by
  have hseen : ¬(s.inReset = true ∨ s.station.joined = false ∨ (fourGet s.inputs i).level = v) := by
    rw [hreset, hjoined]
    simp [hlevel]
  change Host.Outcome.next (onTriggerEdge i v (settle s)) = _
  rw [settle_of_settled s hsettled]
  refine congrArg _ ((if_neg hseen).trans ?_)
  subst h
  dsimp only
  rw [State.withPins]
  cases edgeOf (fourGet s.inputs i).selection v <;> rfl

end

theorem takeEdge_of_still {s : State} {i : Fin 4} (h : (fourGet s.inputs i).template = none ∨ (fourGet s.inputs i).gapEnd ≠ none)
    (e : Edge) : takeEdge i e s = s.caught i e := by
  have hcaught : (s.withInputs (fourSet s.inputs i { fourGet s.inputs i with
      capture := captureEdge s.clock.lineTime e (fourGet s.inputs i).capture })) = s.caught i e := by
    rw [captureEdge_eq]
    rfl
  unfold takeEdge
  dsimp only
  rw [hcaught]
  cases ht : (fourGet s.inputs i).template with
  | none => rfl
  | some x => exact if_neg (h.resolve_left (by rw [ht]; simp))

theorem takeEdge_of_emitting {s : State} {i : Fin 4} {x : Template} (ht : (fourGet s.inputs i).template = some x)
    (hg : (fourGet s.inputs i).gapEnd = none) (e : Edge) : takeEdge i e s = emit i x e (s.caught i e) := by
  have hcaught : (s.withInputs (fourSet s.inputs i { fourGet s.inputs i with
      capture := captureEdge s.clock.lineTime e (fourGet s.inputs i).capture })) = s.caught i e := by
    rw [captureEdge_eq]
    rfl
  unfold takeEdge
  dsimp only
  rw [hcaught, ht]
  exact if_pos hg

/-- The input record after a change of level whose edge is caught. -/
theorem inputs_levelSeen_caught (s : State) (i : Fin 4) (v : Level) (e : Edge) : ((s.levelSeen i v).caught i e).inputs =
    fourSet s.inputs i { fourGet s.inputs i with
      level := v, capture := caughtAt s.clock.lineTime e (fourGet s.inputs i).capture } := by
  simp only [State.caught, State.levelSeen, State.withInputs, State.withPins, fourGet_fourSet_same, fourSet_fourSet]

/-- Settles O37. -/
theorem edgeIsCaptured : Obligations.EdgeIsCaptured := by
  intro s i v hsettled hreset hjoined hlevel seen input
  refine ⟨fun h => exec_triggerEdge hsettled hreset hjoined hlevel (edgeOf_eq_none h), fun h hstill => ?_⟩
  have hstill' : (fourGet (s.levelSeen i v).inputs i).template = none ∨ (fourGet (s.levelSeen i v).inputs i).gapEnd ≠ none := by
    simp only [State.levelSeen, State.withInputs, fourGet_fourSet_same]
    exact hstill
  rw [exec_triggerEdge hsettled hreset hjoined hlevel (edgeOf_eq_some h)]
  refine (congrArg Host.Outcome.next (takeEdge_of_still hstill' _)).trans ?_
  exact congrArg (fun x => Host.Outcome.next (seen.withInputs x)) (inputs_levelSeen_caught s i v _)

/-! ### Emission -/

/-- R147: the outcome of an emission after JOIN. -/
theorem emissionOutcome_of_joined {s : State} (h : s.station.joined = true) : emissionOutcome s =
    if s.station.state = .silent then .droppedState
    else if s.clock.state = .unsynced then .droppedUnsynced
    else if s.send.queue.length < 8 ∧ s.send.issued.length + s.send.queuedCues < 32 then .queued
    else .droppedFull := by
  have hopen : (if s.synced then (if s.send.queueRoom && s.send.serialRoom then TriggerOutcome.queued else .droppedFull)
      else .droppedUnsynced) = if s.clock.state = .unsynced then .droppedUnsynced
        else if s.send.queue.length < 8 ∧ s.send.issued.length + s.send.queuedCues < 32 then .queued else .droppedFull := by
    by_cases hc : s.clock.state = .unsynced
    · rw [if_pos hc, (synced_eq_false_iff s).2 hc]
      rfl
    · rw [if_neg hc, (synced_iff s).2 hc, if_pos rfl]
      simp only [Bool.and_eq_true, queueRoom_iff, serialRoom_iff]
  unfold Station.joined at h
  unfold emissionOutcome
  cases hs : s.station.state with
  | halted | setup => rw [hs] at h; cases h
  | silent => rfl
  | listen | active => exact hopen

/-- R148, R149: an emission that joins the queue. -/
theorem emit_of_queued {s : State} (h : emissionOutcome s = .queued) (i : Fin 4) (x : Template) (e : Edge) :
    emit i x e s = notify (.trigger i .queued s.send.nextSerial (some e) s.clock.lineTime
        (s.clock.lineTime + x.lead.setWidth 32) s.clock.lineTime)
      ((joinCue 0 (.trigger i) x.scope (bytes4 (s.clock.lineTime + x.lead.setWidth 32) ++ planBytes x.rep x.actions) s).withInputs
        (fourSet s.inputs i { fourGet s.inputs i with gapEnd := gapEndOf s.clock.lineTime (fourGet s.inputs i).gap })) := by
  unfold emit
  rw [h]
  rfl

/-- R147, R150: an emission that is dropped. -/
theorem emit_of_dropped {s : State} {o : TriggerOutcome} (h : emissionOutcome s = o) (ho : o ≠ .queued) (i : Fin 4) (x : Template)
    (e : Edge) : emit i x e s = notify (.trigger i o 0 (some e) s.clock.lineTime
      (s.clock.lineTime + x.lead.setWidth 32) s.clock.lineTime) s := by
  subst h
  unfold emit
  cases hq : emissionOutcome s with
  | queued => exact absurd hq ho
  | _ => rfl

/-- What an emission leaves alone. -/
theorem touches_emit (i : Fin 4) (x : Template) (e : Edge) (s : State) : Touches [.send, .inputs, .port] s (emit i x e s) := by
  by_cases h : emissionOutcome s = .queued
  · rw [emit_of_queued h]
    exact (Touches.withSend s _).andThen (.withInputs _ _) |>.andThen (.notify _ _) |>.mono (by simp)
  · rw [emit_of_dropped rfl h]
    exact (Touches.notify _ _).mono (by simp)

/-- Settles O38: the outcomes of R147 one by one. -/
theorem edgeIsEmittedOrDropped : Obligations.EdgeIsEmittedOrDropped := by
  intro s i v x hsettled hreset hjoined hlevel hsel htemplate hgap now fire edge caught
  have hexec := exec_triggerEdge hsettled hreset hjoined hlevel (edgeOf_eq_some hsel)
  have htemplate' : (fourGet (s.levelSeen i v).inputs i).template = some x := by
    simp only [State.levelSeen, State.withInputs, fourGet_fourSet_same]
    exact htemplate
  have hgap' : (fourGet (s.levelSeen i v).inputs i).gapEnd = none := by
    simp only [State.levelSeen, State.withInputs, fourGet_fourSet_same]
    exact hgap
  have hemit : takeEdge i edge (s.levelSeen i v) = emit i x edge ((s.levelSeen i v).caught i edge) :=
    takeEdge_of_emitting htemplate' hgap' edge
  have hinputs := inputs_levelSeen_caught s i v edge
  have hsame : emissionOutcome ((s.levelSeen i v).caught i edge) = emissionOutcome s := rfl
  have houtcome := hsame.trans (emissionOutcome_of_joined hjoined)
  have htouch := touches_emit i x edge ((s.levelSeen i v).caught i edge)
  rw [← hemit] at htouch
  refine ⟨_, hexec, htouch.station (by simp), htouch.clock (by simp), htouch.cues (by simp), htouch.points (by simp),
    htouch.line (by simp), htouch.decoder (by simp), htouch.peers (by simp), htouch.work (by simp), ?_⟩
  have hdropped (o : TriggerOutcome) (h : emissionOutcome ((s.levelSeen i v).caught i edge) = o) (ho : o ≠ .queued) :
      (takeEdge i edge (s.levelSeen i v)).send = s.send ∧ fourGet (takeEdge i edge (s.levelSeen i v)).inputs i = caught ∧
        (takeEdge i edge (s.levelSeen i v)).port = s.port.push (s.station.enables .trigger)
          (.trigger i o 0 (some edge) now fire now) := by
    rw [hemit, emit_of_dropped h ho]
    refine ⟨rfl, ?_, rfl⟩
    change fourGet ((s.levelSeen i v).caught i edge).inputs i = _
    rw [hinputs, fourGet_fourSet_same]
  refine ⟨fun j hj => ?_, fun hstate hclock hqueue hserials => ?_, fun hstate => ?_, fun hstate hclock => ?_,
    fun hstate hclock hroom => ?_⟩
  · change fourGet (takeEdge i edge (s.levelSeen i v)).inputs j = _
    rw [hemit]
    by_cases hq : emissionOutcome ((s.levelSeen i v).caught i edge) = .queued
    · rw [emit_of_queued hq]
      change fourGet (fourSet ((s.levelSeen i v).caught i edge).inputs i _) j = _
      rw [fourGet_fourSet_of_ne _ _ hj, hinputs, fourGet_fourSet_of_ne _ _ hj]
    · rw [emit_of_dropped rfl hq]
      change fourGet ((s.levelSeen i v).caught i edge).inputs j = _
      rw [hinputs, fourGet_fourSet_of_ne _ _ hj]
  · rw [if_neg hstate, if_neg hclock, if_pos ⟨hqueue, hserials⟩] at houtcome
    change (takeEdge i edge (s.levelSeen i v)).send = _ ∧ fourGet (takeEdge i edge (s.levelSeen i v)).inputs i = _ ∧
      (takeEdge i edge (s.levelSeen i v)).port = _
    rw [hemit, emit_of_queued houtcome]
    refine ⟨rfl, ?_, rfl⟩
    change fourGet (fourSet ((s.levelSeen i v).caught i edge).inputs i _) i = _
    rw [fourGet_fourSet_same, hinputs, fourGet_fourSet_same]
    rfl
  · rw [if_pos hstate] at houtcome
    exact hdropped _ houtcome (by simp)
  · rw [if_neg hstate, if_pos hclock] at houtcome
    exact hdropped _ houtcome (by simp)
  · have hfull : ¬(s.send.queue.length < 8 ∧ s.send.issued.length + s.send.queuedCues < 32) := by omega
    rw [if_neg hstate, if_neg hclock, if_neg hfull] at houtcome
    exact hdropped _ houtcome (by simp)

end Sys2Proof.Machine
end

section
/-! SUPPORT. Ticks, the readers of an advance, and due times (R67 to R72, R77, R79 to R81, R84, R130, R143, R149, R163). -/

namespace Sys2Proof.Machine

/-! ### Ticks -/

/-- R70, R71: a tick with nothing in hand, by what the slew makes of it. -/
theorem crystalTick_eq {s : State} (hwork : s.work = Work.none) (size : Nat) (remainder : Int) (phase : Nat) (sinceMark : Int)
    (hsize : s.clock.tickSize = size)
    (hslewed : s.clock.slewed = { s.clock with slewRemainder := remainder, slewPhase := phase, slewSinceMark := sinceMark }) :
    crystalTick s = s.atTick size remainder phase sinceMark := by
  unfold crystalTick State.atTick Clock.ticked Clock.dueAt
  rw [hsize, hslewed, hwork]
  cases s.clock.nextDue with
  | none => simp [Work.none]
  | some d => simp [Work.none]

section
variable {s : State} (hsettled : s.settled = true) (hreset : s.inReset = false)
include hsettled hreset

theorem exec_tick : exec .tick s = .next (crystalTick s) := by
  change Host.Outcome.next (if (settle s).inReset then settle s else crystalTick (settle s)) = _
  rw [settle_of_settled s hsettled, hreset]
  rfl

theorem exec_slewedTick (hdue : s.clock.slewDue = true) : exec .slewedTick s = .next (crystalTick s) := by
  change Host.Outcome.next (if (settle s).inReset ∨ (settle s).clock.slewDue = false then settle s else crystalTick (settle s)) = _
  rw [settle_of_settled s hsettled, hreset, hdue]
  rfl

end

theorem Clock.slewDue_iff (c : Clock) : c.slewDue = true ↔ c.slewRemainder ≠ 0 ∧ 32 ≤ c.slewPhase + 1 := by
  unfold Clock.slewDue
  rw [Bool.and_eq_true, decide_eq_true_iff, decide_eq_true_iff]
  rfl

/-- R143, for a hold end told by its distance. -/
theorem holdLimitAt_held (base : Time) (size : Nat) (t : Time) (e : Edge) (extra : Nat) (holdEnd : Time) :
    holdLimitAt ⟨base, size⟩ (.held t e extra holdEnd) =
      if distance holdEnd base ≤ size then .expired t e extra else .held t e extra holdEnd := by
  unfold holdLimitAt Advance.reaches
  simp only [decide_eq_true_eq]

/-- R149, for a gap end told by its distance. -/
theorem gapEndAt_eq_filter (base : Time) (size : Nat) (g : Option Time) :
    gapEndAt ⟨base, size⟩ g = g.filter (fun t => decide (size < distance t base)) := by
  cases g with
  | none => rfl
  | some t =>
    change (if decide (distance t base ≤ size) = true then none else some t) =
      (if decide (size < distance t base) = true then some t else none)
    simp only [decide_eq_true_eq]
    by_cases h : distance t base ≤ size
    · rw [if_pos h, if_neg (not_lt.2 h)]
    · rw [if_neg h, if_pos (not_le.1 h)]

theorem ageIssued_eq (base : Time) (size : Nat) (s : State) : ageIssued ⟨base, size⟩ s = s.withSend { s.send with
    issued := s.send.issued.filter (fun x => decide (size ≤ distance x.lastFire base)) } := by
  unfold ageIssued Advance.passes
  have hpred : (fun i : Issued => !decide (distance i.lastFire base < size)) = fun x => decide (size ≤ distance x.lastFire base) := by
    funext i
    rw [← decide_not]
    exact decide_eq_decide.2 not_lt
  rw [hpred]

/-- Settles O39: the four kinds of tick, then the readers of an advance one by one. -/
theorem ticksAndTheirReaders : Obligations.TicksAndTheirReaders := by
  refine ⟨?_, ?_⟩
  · intro s hsettled hreset
    have hwork := State.settled_work hsettled
    have htick := exec_tick hsettled hreset
    refine ⟨fun hrem => ?_, fun hrem hphase => ?_, fun hrem hphase => ?_, fun hrem hphase => ?_⟩
    · have hdue : ¬s.clock.slewDue = true := fun h => (s.clock.slewDue_iff.1 h).1 hrem
      rw [htick, crystalTick_eq hwork 1 0 0 s.clock.slewSinceMark (if_neg hdue)]
      rw [Clock.slewed, if_neg hdue, if_pos hrem, ← hrem]
    · have hdue : ¬s.clock.slewDue = true := fun h => absurd (s.clock.slewDue_iff.1 h).2 (not_le.2 hphase)
      rw [htick, crystalTick_eq hwork 1 _ _ _ (if_neg hdue)]
      rw [Clock.slewed, if_neg hdue, if_neg hrem]
    · have hdue : s.clock.slewDue = true := s.clock.slewDue_iff.2 ⟨by omega, hphase⟩
      have hslewed := exec_slewedTick hsettled hreset hdue
      refine ⟨?_, htick.trans hslewed.symm⟩
      have hsize : s.clock.tickSize = 2 := by rw [Clock.tickSize, if_pos hdue, if_pos hrem]
      rw [hslewed, crystalTick_eq hwork 2 _ _ _ hsize]
      rw [Clock.slewed, if_pos hdue, if_pos hrem]
    · have hdue : s.clock.slewDue = true := s.clock.slewDue_iff.2 ⟨by omega, hphase⟩
      have hback : ¬0 < s.clock.slewRemainder := by omega
      have hslewed := exec_slewedTick hsettled hreset hdue
      refine ⟨?_, htick.trans hslewed.symm⟩
      have hsize : s.clock.tickSize = 0 := by rw [Clock.tickSize, if_pos hdue, if_neg hback]
      rw [hslewed, crystalTick_eq hwork 0 _ _ _ hsize]
      rw [Clock.slewed, if_pos hdue, if_neg hback]
  · intro s base size hadv
    refine ⟨fun i => ?_, fun i => ?_, ?_⟩
    · change execHoldLimit i s = _
      unfold execHoldLimit
      rw [hadv]
      dsimp only
      cases hc : (fourGet s.inputs i).capture with
      | held t e extra holdEnd => rw [holdLimitAt_held]
      | expired | empty => rfl
    · change execGapEnd i s = _
      unfold execGapEnd
      rw [hadv]
      dsimp only
      rw [gapEndAt_eq_filter]
    · change execAgeOut s = _
      unfold execAgeOut
      rw [hadv]
      exact congrArg _ (ageIssued_eq base size s)

end Sys2Proof.Machine
end

section
/-! SUPPORT. Beacon due times (R72, R79 to R81, R84, R163). -/

namespace Sys2Proof.Machine

/-! ### The parts of a due time -/

/-- R72: the station after the count of a due time. -/
def State.counted (s : State) : State := dueCounts (s.withWork { s.work with due := false })

/-- R84: the beacon slot that a due time leaves at a station with its count made. -/
def State.placedSlot (s : State) : BeaconSlot :=
  if s.station.eligible ∧ s.station.state = .active ∧ s.clock.permitsBeacon s.station.id ∧ s.send.slot = .empty then .queued
  else s.send.slot

theorem placeBeacon_eq (s : State) : placeBeacon s = s.withSend { s.send with slot := s.placedSlot } := by
  unfold placeBeacon State.placedSlot
  split <;> rfl

theorem aged_eq (r : PeerRecord) : r.aged = agedRecord r := by
  unfold PeerRecord.aged agedRecord
  by_cases hp : r.presence = .present
  · rw [if_pos hp, if_pos hp]
    by_cases h : r.silenceCount < 7
    · have h' : ¬Config.silenceLimit ≤ r.silenceCount + 1 := not_le.2 (Nat.succ_lt_succ h)
      rw [if_pos h, if_neg h']
    · have h' : Config.silenceLimit ≤ r.silenceCount + 1 := Nat.succ_le_succ (not_lt.1 h)
      rw [if_neg h, if_pos h']
      rfl
  · rw [if_neg hp, if_neg hp]

theorem touches_counted (s : State) : Touches [.clock, .station, .port, .work] s s.counted :=
  (Touches.withWork s _).andThen (touches_dueCounts _) |>.mono (by simp)

theorem finishDue_eq {s : State} (hdue : s.work.due = true) : finishDue s = ((s.counted.withSend { s.counted.send with slot := s.counted.placedSlot }).withPeers
    (s.peers.map agedRecord)).withPort
      (s.counted.port.pushAll s.counted.station (ageingNotices s.counted.clock.lineTime 1 s.peers)) := by
  have hpeers : s.counted.peers = s.peers := (touches_counted s).peers (by simp)
  rw [finishDue_of_due hdue]
  change agePeers (placeBeacon s.counted) = _
  rw [placeBeacon_eq, agePeers, notifyAll_eq]
  have haged : PeerRecord.aged = agedRecord := funext aged_eq
  rw [← hpeers, haged]
  rfl

theorem permitsBeacon_iff (c : Clock) (own : Byte) : c.permitsBeacon own = true ↔
    c.state = .reference ∨ c.state = .holdover ∨ (c.state = .following ∧ ∃ r, c.refId = some r ∧ own.toNat < r.toNat) ∨
      (c.state = .unsynced ∧ c.window = .expired) := by
  unfold Clock.permitsBeacon
  cases c.state with
  | reference | holdover => simp
  | unsynced => simp
  | following =>
    cases c.refId with
    | none => simp
    | some r => simp

theorem State.placedSlot_of_permitted {s : State} (he : s.station.eligible = true) (ha : s.station.state = .active)
    (hslot : s.send.slot = .empty) (hp : s.clock.permitsBeacon s.station.id = true) : s.placedSlot = .queued :=
  if_pos ⟨he, ha, hp, hslot⟩

theorem State.placedSlot_of_not {s : State}
    (h : s.station.eligible = false ∨ s.station.state ≠ .active ∨ s.send.slot ≠ .empty ∨
      s.clock.permitsBeacon s.station.id ≠ true) : s.placedSlot = s.send.slot := by
  refine if_neg ?_
  rintro ⟨he, ha, hp, hslot⟩
  rcases h with h | h | h | h
  · rw [he] at h
    cases h
  · exact h ha
  · exact h hslot
  · exact h hp

/-! ### The count of each clock state -/

section
variable {s : State}

theorem counted_following_below (hstate : s.clock.state = .following) (h : s.clock.missCount < 2) :
    s.counted = (s.withWork { s.work with due := false }).withClock { s.clock with missCount := s.clock.missCount + 1 } := by
  have hlimit : ¬Config.missLimit ≤ s.clock.missCount + 1 := not_le.2 (Nat.succ_lt_succ h)
  unfold State.counted dueCounts
  rw [State.withWork_clock, hstate]
  exact if_neg hlimit

theorem counted_following_limit (hstate : s.clock.state = .following) (h : 2 ≤ s.clock.missCount) :
    s.counted = loseReference (s.withWork { s.work with due := false }) := by
  have hlimit : Config.missLimit ≤ s.clock.missCount + 1 := Nat.succ_le_succ h
  unfold State.counted dueCounts
  rw [State.withWork_clock, hstate]
  exact if_pos hlimit

theorem counted_holdover_below (hstate : s.clock.state = .holdover) (h : s.clock.holdoverCount < 63) :
    s.counted = (s.withWork { s.work with due := false }).withClock
      { s.clock with holdoverCount := s.clock.holdoverCount + 1 } := by
  have hlimit : ¬Config.holdoverLimit ≤ s.clock.holdoverCount + 1 := not_le.2 (Nat.succ_lt_succ h)
  unfold State.counted dueCounts
  rw [State.withWork_clock, hstate]
  exact if_neg hlimit

theorem counted_holdover_limit (hstate : s.clock.state = .holdover) (h : 63 ≤ s.clock.holdoverCount) :
    s.counted = endHoldover (s.withWork { s.work with due := false }) := by
  have hlimit : Config.holdoverLimit ≤ s.clock.holdoverCount + 1 := Nat.succ_le_succ h
  unfold State.counted dueCounts
  rw [State.withWork_clock, hstate]
  exact if_pos hlimit

theorem counted_window_below (hstate : s.clock.state = .unsynced) (hrun : s.clock.window = .running)
    (h : s.clock.windowCount < 3) :
    s.counted = (s.withWork { s.work with due := false }).withClock
      { s.clock with windowCount := s.clock.windowCount + 1 } := by
  have hlimit : ¬Config.firstListenLimit ≤ s.clock.windowCount + 1 := not_le.2 (Nat.succ_lt_succ h)
  unfold State.counted dueCounts
  rw [State.withWork_clock, hstate]
  dsimp only
  rw [if_pos hrun, if_neg hlimit]

theorem counted_window_limit (hstate : s.clock.state = .unsynced) (hrun : s.clock.window = .running)
    (h : 3 ≤ s.clock.windowCount) : s.counted = expireWindow (s.withWork { s.work with due := false }) := by
  have hlimit : Config.firstListenLimit ≤ s.clock.windowCount + 1 := Nat.succ_le_succ h
  unfold State.counted dueCounts
  rw [State.withWork_clock, hstate]
  dsimp only
  rw [if_pos hrun, if_pos hlimit]

theorem counted_still (h : s.clock.state = .reference ∨ (s.clock.state = .unsynced ∧ s.clock.window ≠ .running)) :
    s.counted = s.withWork { s.work with due := false } := by
  unfold State.counted dueCounts
  rw [State.withWork_clock]
  rcases h with h | ⟨h, hw⟩ <;> rw [h]
  exact if_neg hw

end

/-- R81, R158: the station record when the window expires. -/
theorem expireWindow_station (s : State) : (expireWindow s).station =
    { s.station with state := if s.station.eligible = true ∧ s.station.state = .listen then .active else s.station.state } := by
  unfold expireWindow
  dsimp only
  by_cases he : s.station.eligible = true
  · have hstate : (if s.station.eligible = true ∧ s.station.state = .listen then .active else s.station.state) =
        if s.station.state = .listen then .active else s.station.state := by
      by_cases hl : s.station.state = .listen <;> simp [he, hl]
    rw [if_pos he, enterActive_station, hstate]
    rfl
  · rw [if_neg he, if_neg fun h => he h.1]
    rfl

theorem expireWindow_clock (s : State) : (expireWindow s).clock = { s.clock with window := .expired, windowCount := 4 } := by
  unfold expireWindow
  dsimp only
  split
  · exact (touches_enterActive _ _).clock (by simp)
  · rfl

theorem Port.used_push_le (p : Port) (b : Bool) (n : Notice) : (p.push b n).used ≤ p.used + 1 := by
  unfold Port.used
  rw [p.push_reservation]
  rcases p.push_cases b n with ⟨-, hn, -⟩ | ⟨-, -, hn, -⟩ | ⟨-, -, hn, -⟩ <;> rw [hn]
  · omega
  · rw [List.length_append, List.length_singleton]
    omega
  · omega

theorem used_expireWindow_le (s : State) : (expireWindow s).port.used ≤ s.port.used + 1 := by
  unfold expireWindow enterActive
  dsimp only
  split
  · split
    · exact s.port.used_push_le _ _
    · exact Nat.le_succ _
  · exact Nat.le_succ _

/-- What a count leaves of the rest, in every clock state (R72): a notice at most, and the entry to ACTIVE from LISTEN. -/
theorem counted_rest (s : State) :
    s.counted.clock.lineTime = s.clock.lineTime ∧
      s.counted.station = { s.station with state := s.counted.station.state } ∧
      (s.counted.station.state = s.station.state ∨ (s.station.state = .listen ∧ s.counted.station.state = .active)) ∧
      s.counted.port.used ≤ s.port.used + 1 := by
  cases hstate : s.clock.state with
  | reference =>
    rw [counted_still (.inl hstate)]
    exact ⟨rfl, rfl, .inl rfl, Nat.le_succ _⟩
  | following =>
    by_cases h : s.clock.missCount < 2
    · rw [counted_following_below hstate h]
      exact ⟨rfl, rfl, .inl rfl, Nat.le_succ _⟩
    · rw [counted_following_limit hstate (not_lt.1 h)]
      exact ⟨rfl, rfl, .inl rfl, s.port.used_push_le _ _⟩
  | holdover =>
    by_cases h : s.clock.holdoverCount < 63
    · rw [counted_holdover_below hstate h]
      exact ⟨rfl, rfl, .inl rfl, Nat.le_succ _⟩
    · rw [counted_holdover_limit hstate (not_lt.1 h)]
      exact ⟨rfl, rfl, .inl rfl, s.port.used_push_le _ _⟩
  | unsynced =>
    by_cases hrun : s.clock.window = .running
    · by_cases h : s.clock.windowCount < 3
      · rw [counted_window_below hstate hrun h]
        exact ⟨rfl, rfl, .inl rfl, Nat.le_succ _⟩
      · rw [counted_window_limit hstate hrun (not_lt.1 h), expireWindow_clock, expireWindow_station]
        refine ⟨rfl, rfl, ?_, used_expireWindow_le _⟩
        by_cases hl : s.station.eligible = true ∧ s.station.state = .listen
        · exact .inr ⟨hl.2, if_pos hl⟩
        · exact .inl (if_neg hl)
    · rw [counted_still (.inr ⟨hstate, hrun⟩)]
      exact ⟨rfl, rfl, .inl rfl, Nat.le_succ _⟩

section
variable {s : State} (hdue : s.work.due = true)
include hdue

theorem finishDue_clock : (finishDue s).clock = s.counted.clock := by rw [finishDue_eq hdue]; rfl
theorem finishDue_station : (finishDue s).station = s.counted.station := by rw [finishDue_eq hdue]; rfl
theorem finishDue_peers : (finishDue s).peers = s.peers.map agedRecord := by rw [finishDue_eq hdue]; rfl
theorem finishDue_port : (finishDue s).port =
    s.counted.port.pushAll s.counted.station (ageingNotices s.clock.lineTime 1 s.peers) := by
  obtain ⟨htime, -⟩ := counted_rest s
  rw [finishDue_eq hdue, htime]
  rfl

theorem finishDue_send : (finishDue s).send = { s.send with slot := s.counted.placedSlot } := by
  have hsend : s.counted.send = s.send := (touches_counted s).send (by simp)
  rw [finishDue_eq hdue, hsend]
  rfl

theorem sameBesides_finishDue : sameBesidesDueTime s (finishDue s) := by
  have h := touches_finishDue s
  obtain ⟨-, hstation, -⟩ := counted_rest s
  exact ⟨h.pins (by simp), h.cues (by simp), h.points (by simp), h.line (by simp), h.decoder (by simp), h.inputs (by simp),
    by rw [finishDue_send hdue], by rw [finishDue_station hdue]; exact hstation, finishDue_work s⟩

end

/-- Settles O40. -/
theorem dueTimeCountsPlacesAndAges : Obligations.DueTimeCountsPlacesAndAges := by
  intro s hdue
  have hslot : s.counted.send.slot = s.send.slot := congrArg SendUnit.slot ((touches_counted s).send (by simp))
  obtain ⟨-, hstation, -⟩ := counted_rest s
  have heligible : s.counted.station.eligible = s.station.eligible := by rw [hstation]
  have hid : s.counted.station.id = s.station.id := by rw [hstation]
  refine ⟨_, rfl, sameBesides_finishDue hdue, finishDue_peers hdue, ?_⟩
  rw [finishDue_clock hdue, finishDue_station hdue, finishDue_send hdue]
  refine ⟨fun hstate h => ?_, fun hstate h => ?_, fun hstate hrun h => ?_, fun h => ?_, fun he ha hempty hc => ?_, fun h => ?_⟩
  · rw [counted_following_below hstate h]
    exact ⟨rfl, rfl⟩
  · rw [counted_holdover_below hstate h]
    exact ⟨rfl, rfl⟩
  · rw [counted_window_below hstate hrun h]
    exact ⟨rfl, rfl⟩
  · rw [counted_still h]
    exact ⟨rfl, rfl⟩
  · refine State.placedSlot_of_permitted (heligible.trans he) ha (hslot.trans hempty) ((permitsBeacon_iff _ _).2 ?_)
    rw [hid]
    exact hc
  · refine (State.placedSlot_of_not ?_).trans hslot
    rw [heligible, hslot]
    rcases h with h | h | h | ⟨hf, r, hr, hle⟩ | ⟨hu, hw⟩
    · exact .inl h
    · exact .inr (.inl h)
    · exact .inr (.inr (.inl h))
    · refine .inr (.inr (.inr fun hp => ?_))
      rw [permitsBeacon_iff, hf, hr, hid] at hp
      simp [not_lt.2 hle] at hp
    · refine .inr (.inr (.inr fun hp => ?_))
      rw [permitsBeacon_iff, hu] at hp
      simp [hw] at hp

/-! ### The limits -/

/-- R163: what the ageing of a record reports. -/
def reportsSilence (r : PeerRecord) : Prop := r.presence = .present ∧ 7 ≤ r.silenceCount

theorem agedRecord_of_silence {r : PeerRecord} (h : reportsSilence r) :
    agedRecord r = { r with presence := .silent, silenceCount := 8, beaconSender := false } := by
  rw [agedRecord, if_pos h.1, if_neg (not_lt.2 h.2)]

theorem ageing_reports_iff (r : PeerRecord) : (r.presence = .present ∧ r.aged.presence = .silent) ↔ reportsSilence r := by
  rw [aged_eq]
  refine ⟨fun ⟨hp, hs⟩ => ⟨hp, ?_⟩, fun h => ⟨h.1, by rw [agedRecord_of_silence h]⟩⟩
  by_contra hlt
  rw [agedRecord, if_pos hp, if_pos (not_le.1 hlt)] at hs
  exact absurd (hp.symm.trans hs) (by simp)

/-- R163, R165: each record that falls silent is reported under its ID. -/
theorem mem_ageingNotices (now : Time) (rs : List PeerRecord) (start : Byte) (k : Nat) {r : PeerRecord} (hk : rs[k]? = some r)
    (h : reportsSilence r) :
    .peer (start + BitVec.ofNat 8 k) .present .silent r.lastHeard r.framesHeard now ∈ ageingNotices now start rs := by
  induction rs generalizing start k with
  | nil => cases hk
  | cons x rs ih =>
    unfold ageingNotices
    cases k with
    | zero =>
      obtain rfl : x = r := by simpa using hk
      rw [if_pos ((ageing_reports_iff x).2 h)]
      simp
    | succ k =>
      have hid : start + BitVec.ofNat 8 (k + 1) = start + 1 + BitVec.ofNat 8 k := by
        rw [BitVec.add_assoc, Nat.add_comm, BitVec.ofNat_add]
        rfl
      rw [hid]
      have hmem := ih (start + 1) k hk
      split
      · exact List.mem_cons_of_mem _ hmem
      · exact hmem

theorem length_ageingNotices (now : Time) (rs : List PeerRecord) (start : Byte) : (ageingNotices now start rs).length =
    (rs.filter (fun x => decide (x.presence = .present ∧ 7 ≤ x.silenceCount))).length := by
  induction rs generalizing start with
  | nil => rfl
  | cons r rs ih =>
    unfold ageingNotices
    by_cases h : r.presence = .present ∧ 7 ≤ r.silenceCount
    · rw [if_pos ((ageing_reports_iff r).2 h), List.filter_cons_of_pos (by rw [decide_eq_true_eq]; exact h), List.length_cons, List.length_cons, ih]
    · rw [if_neg fun h' => h ((ageing_reports_iff r).1 h'), List.filter_cons_of_neg (by rw [decide_eq_true_eq]; exact h), ih]

/-- R165, R172: what a station enables does not change when it enters ACTIVE from LISTEN. -/
theorem counted_enables (s : State) : s.counted.station.enables = s.station.enables := by
  obtain ⟨-, hstation, hstate, -⟩ := counted_rest s
  refine Station.enables_congr ?_ (by rw [hstation])
  rcases hstate with h | ⟨hl, ha⟩
  · rw [hstation, h]
  · rw [Station.joined, ha, Station.joined, hl]

section
variable {s : State} (hdue : s.work.due = true)
include hdue

/-- R172: a CLOCK notice of the count comes first. -/
theorem finishDue_notices_of_pushed {n : Notice} (hport : s.counted.port = s.port.push (s.station.enables .clock) n)
    (hroom : s.port.used < 16) (hon : s.station.enables .clock = true) :
    ∃ rest, (finishDue s).port.notices = s.port.notices ++ (n :: rest) := by
  obtain ⟨rest, hrest⟩ :=
    Port.pushAll_prefix s.counted.station s.counted.port (ageingNotices s.clock.lineTime 1 s.peers)
  obtain ⟨hn, -⟩ := s.port.push_of_free n hroom
  refine ⟨rest, ?_⟩
  rw [finishDue_port hdue, hrest, hport, hon, hn, List.append_assoc]
  rfl

/-- R165: with room, the PEER notice of a record that falls silent is there. -/
theorem peer_mem_finishDue {id : Byte} {r : PeerRecord} (h1 : 1 ≤ id.toNat) (hr : s.peers[id.toNat - 1]? = some r)
    (h : reportsSilence r) (hon : s.station.enables .peer = true)
    (hroom : s.port.used + 1 + (s.peers.filter (fun x => decide (x.presence = .present ∧ 7 ≤ x.silenceCount))).length ≤ 16) :
    .peer id .present .silent r.lastHeard r.framesHeard s.clock.lineTime ∈ (finishDue s).port.notices := by
  have hmem := mem_ageingNotices s.clock.lineTime s.peers 1 (id.toNat - 1) hr h
  have hid : (1 : Byte) + BitVec.ofNat 8 (id.toNat - 1) = id := by
    refine BitVec.eq_of_toNat_eq ?_
    rw [BitVec.toNat_add, BitVec.toNat_ofNat]
    have := id.isLt
    change (1 + _) % _ = _
    omega
  rw [hid] at hmem
  obtain ⟨-, -, -, hused⟩ := counted_rest s
  obtain ⟨hn, -⟩ := Port.pushAll_notices s.counted.station s.counted.port (ageingNotices s.clock.lineTime 1 s.peers)
    (by rw [length_ageingNotices]; omega)
  rw [finishDue_port hdue, hn]
  refine List.mem_append_right _ (List.mem_filter.2 ⟨hmem, ?_⟩)
  rw [counted_enables]
  exact hon

end

/-- R72: the limits' own rows take the due time whole. -/
theorem exec_referenceLost {s : State} (hstate : s.clock.state = .following) (h : 2 ≤ s.clock.missCount) :
    exec .referenceLost s = .next (finishDue s) :=
  congrArg Host.Outcome.next (if_pos ⟨hstate, Nat.succ_le_succ h⟩)

theorem exec_holdoverLimit {s : State} (hstate : s.clock.state = .holdover) (h : 63 ≤ s.clock.holdoverCount) :
    exec .holdoverLimit s = .next (finishDue s) :=
  congrArg Host.Outcome.next (if_pos ⟨hstate, Nat.succ_le_succ h⟩)

theorem exec_firstListenExpiry {s : State} (hstate : s.clock.state = .unsynced) (hrun : s.clock.window = .running)
    (h : 3 ≤ s.clock.windowCount) : exec .firstListenExpiry s = .next (finishDue s) :=
  congrArg Host.Outcome.next (if_pos ⟨hstate, hrun, Nat.succ_le_succ h⟩)

theorem exec_peerSilence {s : State} {id : Byte} {r : PeerRecord} (h1 : 1 ≤ id.toNat) (hr : s.peers[id.toNat - 1]? = some r)
    (h : reportsSilence r) : exec (.peerSilence id) s = .next (finishDue s) := by
  have hpeer := s.peer_of_getElem? h1 hr
  refine congrArg Host.Outcome.next (if_pos ?_)
  rw [hpeer]
  exact ⟨h.1, Nat.succ_le_succ h.2⟩

/-- Settles O41: each limit is a case of the count, and the rest of the due time is O40's. -/
theorem dueTimesThatReachALimit : Obligations.DueTimesThatReachALimit := by
  intro s hdue
  have hsame := sameBesides_finishDue hdue
  have hpeers := finishDue_peers hdue
  have hsend : s.counted.send = s.send := (touches_counted s).send (by simp)
  refine ⟨fun hstate h => ?_, fun hstate h => ?_, fun hstate hrun h => ?_, fun id r h1 _ hr hp hsilent => ?_⟩
  · have hcounted := counted_following_limit hstate h
    refine ⟨_, exec_referenceLost hstate h, hsame, hpeers, ?_, ?_, fun hroom hon => ?_, rfl⟩
    · rw [finishDue_clock hdue, hcounted]
      rfl
    · rw [finishDue_station hdue, hcounted]
      rfl
    · refine finishDue_notices_of_pushed hdue ?_ hroom hon
      rw [hcounted, ← hstate]
      rfl
  · have hcounted := counted_holdover_limit hstate h
    refine ⟨_, exec_holdoverLimit hstate h, hsame, hpeers, ?_, ?_, ?_, fun hroom hon => ?_, rfl⟩
    · rw [finishDue_clock hdue, hcounted]
      rfl
    · rw [finishDue_station hdue, hcounted]
      rfl
    · rw [finishDue_send hdue, ← hsend]
      refine State.placedSlot_of_not (.inr (.inr (.inr fun hc => ?_)))
      rw [permitsBeacon_iff, hcounted] at hc
      change (ClockState.unsynced = .reference ∨ ClockState.unsynced = .holdover ∨ (ClockState.unsynced = .following ∧ _) ∨
        (_ ∧ WindowState.running = .expired)) at hc
      simp at hc
    · refine finishDue_notices_of_pushed hdue ?_ hroom hon
      rw [hcounted, ← hstate]
      rfl
  · have hcounted := counted_window_limit hstate hrun h
    have hstation : s.counted.station = { s.station with
        state := if s.station.eligible = true ∧ s.station.state = .listen then .active else s.station.state } := by
      rw [hcounted]
      exact expireWindow_station _
    have hclock : s.counted.clock = { s.clock with window := .expired, windowCount := 4 } := by
      rw [hcounted]
      exact expireWindow_clock _
    refine ⟨_, exec_firstListenExpiry hstate hrun h, hsame, hpeers, ?_, ?_, fun he hs hempty => ?_, rfl⟩
    · rw [finishDue_clock hdue, hclock]
    · rw [finishDue_station hdue, hstation]
    · rw [finishDue_send hdue]
      refine State.placedSlot_of_permitted ?_ ?_ (by rw [hsend]; exact hempty) ((permitsBeacon_iff _ _).2 ?_)
      · rw [hstation]
        exact he
      · rw [hstation]
        rcases hs with hl | ha
        · exact if_pos ⟨he, hl⟩
        · exact (if_neg fun hc => absurd (ha.symm.trans hc.2) (by simp)).trans ha
      · rw [hclock]
        exact .inr (.inr (.inr ⟨hstate, rfl⟩))
  · refine ⟨_, exec_peerSilence h1 hr ⟨hp, hsilent⟩, hsame, hpeers, ?_,
      fun hon hroom => peer_mem_finishDue hdue h1 hr ⟨hp, hsilent⟩ hon hroom, rfl⟩
    rw [hpeers, List.getElem?_map, hr]
    exact congrArg some (agedRecord_of_silence ⟨hp, hsilent⟩)

end Sys2Proof.Machine
end

section
/-! SUPPORT. Firing and restores (R51 to R64). -/

namespace Sys2Proof.Machine

/-! ### One action -/

theorem applyActions_cons_line {p : Points} {a : Action} (h : p.owner a.point = .line) (fire : Time) (as : List Action) :
    applyActions fire (a :: as) p = applyActions fire as (p.apply fire a) := by
  rw [applyActions, h]

theorem applyActions_cons_host {p : Points} {a : Action} (h : p.owner a.point = .host) (fire : Time) (as : List Action) :
    applyActions fire (a :: as) p = applyActions fire as p := by
  rw [applyActions, h]

/-- R53, R62, R63: what an action sets its point to, and the restores it leaves for the point. -/
def Action.effect (a : Action) (p : Points) (fire : Time) : Level × List Restore :=
  match a.op with
  | .raise => (.high, [])
  | .lower => (.low, [])
  | .invert => (flipLevel (p.level a.point), [])
  | .pulseHigh w => (.high, [⟨a.point, fire + w.setWidth 32, .low⟩])
  | .pulseLow w => (.low, [⟨a.point, fire + w.setWidth 32, .high⟩])

/-- R53: the two parts of an action. -/
theorem Points.apply_eq (p : Points) (fire : Time) (a : Action) : p.apply fire a =
    { p.setLevel a.point (a.effect p fire).1 with
      pulses := cancelRestore a.point p.pulses ++ (a.effect p fire).2 } := by
  unfold Points.apply Action.effect
  cases a.op <;> simp [recordRestore]

theorem Action.effect_point {a : Action} {p : Points} {fire : Time} {r : Restore} (h : r ∈ (a.effect p fire).2) :
    r.point = a.point := by
  unfold Action.effect at h
  cases hop : a.op <;> simp [hop] at h <;> rw [h]

theorem Points.level_apply (p : Points) (fire : Time) (a : Action) (j : Fin 16) :
    (p.apply fire a).level j = if j = a.point then (a.effect p fire).1 else p.level j := by
  rw [Points.apply_eq]
  exact setLevel_level p a.point j _

theorem Points.mem_apply_pulses (p : Points) (fire : Time) (a : Action) (r : Restore) :
    r ∈ (p.apply fire a).pulses ↔ (r ∈ p.pulses ∧ r.point ≠ a.point) ∨ r ∈ (a.effect p fire).2 := by
  rw [Points.apply_eq]
  exact List.mem_append.trans (or_congr_left (mem_cancelRestore ..))

theorem flipLevel_ne (l : Level) : flipLevel l ≠ l := by cases l <;> simp [flipLevel]

/-- Settles O42. -/
theorem actionOnAPoint : Obligations.ActionOnAPoint := by
  intro p fire a as q
  have hqline (h : p.owner a.point = .line) : q = p.apply fire a := applyActions_cons_line h fire []
  have hqhost (h : p.owner a.point = .host) : q = p := applyActions_cons_host h fire []
  refine ⟨?_, applyActions_owners fire [a] p, hqhost, fun h => ?_⟩
  · cases h : p.owner a.point with
    | line => rw [applyActions_cons_line h, hqline h]
    | host => rw [applyActions_cons_host h, hqhost h]
  · have hlevel : q.level a.point = (a.effect p fire).1 := by rw [hqline h, Points.level_apply, if_pos rfl]
    have hown (r : Restore) (hr : r.point = a.point) : r ∈ q.pulses ↔ r ∈ (a.effect p fire).2 := by
      rw [hqline h, Points.mem_apply_pulses]
      exact or_iff_right fun h' => h'.2 hr
    have hnone (hempty : (a.effect p fire).2 = []) : ∀ r ∈ q.pulses, r.point ≠ a.point := fun r hr hp => by
      have hmem := (hown r hp).1 hr
      rw [hempty] at hmem
      cases hmem
    refine ⟨fun j hj => ?_, fun r hr => ?_, ?_⟩
    · rw [hqline h, Points.level_apply, if_neg hj]
    · rw [hqline h, Points.mem_apply_pulses]
      exact ⟨fun h' => (h'.resolve_right fun h'' => hr (Action.effect_point h'')).1, fun h' => .inl ⟨h', hr⟩⟩
    · obtain ⟨op, point⟩ := a
      cases op with
      | raise => exact ⟨hlevel, hnone rfl⟩
      | lower => exact ⟨hlevel, hnone rfl⟩
      | invert => exact ⟨fun h' => flipLevel_ne _ (hlevel.symm.trans h'), hnone rfl⟩
      | pulseHigh w => exact ⟨hlevel, fun r hr => (hown r hr).trans List.mem_singleton⟩
      | pulseLow w => exact ⟨hlevel, fun r hr => (hown r hr).trans List.mem_singleton⟩

/-! ### The head fires -/

/-- R52: the head is next where no restore that the advance reaches comes before it. -/
theorem exec_firing {s : State} {base : Time} {size : Nat} {e : CueEntry} {rest : List CueEntry}
    (hadv : s.work.advance = some ⟨base, size⟩) (hq : s.cues.armed = e :: rest) (hle : distance e.fireTime base ≤ size)
    (hfirst : ∀ r ∈ s.points.pulses, distance r.time base ≤ size → distance e.fireTime base ≤ distance r.time base) :
    exec .firing s = .next (fireEntry ⟨base, size⟩ e rest s) := by
  have hnext : nextDueItem ⟨base, size⟩ s = some (.entry e rest) :=
    (nextDueItem_eq_entry_iff ..).2 ⟨hq, hle, fun r hr => by
      by_cases h : distance r.time base ≤ size
      · exact hfirst r hr h
      · exact hle.trans (le_of_not_ge h)⟩
  have hitem : s.dueItem = some (⟨base, size⟩, .entry e rest) := by
    rw [State.dueItem, hadv]
    dsimp only
    rw [hnext]
    rfl
  change execFiring s = _
  rw [execFiring, hitem]

/-- R51: a firing is late where the advance goes beyond the fire time. -/
theorem isAfter_target {adv : Advance} {f : Time} (h : distance f adv.base ≤ adv.size) (hs : adv.size < 2 ^ 31) :
    isAfter adv.target f = decide (distance f adv.base < adv.size) := by
  unfold isAfter
  rw [Advance.distance_target h hs, ← Bool.decide_and]
  exact decide_eq_decide.2 (by omega)

/-- R55 to R57: with `k` the first number of periods whose time the advance does not pass. -/
theorem afterFiring_of_repeat {target : Time} {e : CueEntry} {r : Repeat} {k : Nat} (hr : e.rep = some r)
    (hk : 1 ≤ k) (hlow : (k - 1) * r.period.toNat ≤ distance target e.fireTime)
    (hhigh : distance target e.fireTime < k * r.period.toNat) :
    afterFiring target e = if k ≤ r.count.toNat then
      ⟨some { e with
          fireTime := e.fireTime + BitVec.ofNat 32 (k * r.period.toNat),
          rep := if k = r.count.toNat then none else some ⟨r.period, BitVec.ofNat 8 (r.count.toNat - k)⟩ },
        r.count.toNat - k, k - 1⟩
    else ⟨none, 0, r.count.toNat⟩ := by
  have hdiv : distance target e.fireTime / r.period.toNat + 1 = k := by
    have hq : distance target e.fireTime / r.period.toNat = k - 1 :=
      Nat.div_eq_of_lt_le hlow (by rwa [Nat.sub_add_cancel hk])
    omega
  unfold afterFiring
  rw [hr]
  dsimp only
  rw [hdiv]

/-- Settles O43. -/
theorem firingOfTheHead : Obligations.FiringOfTheHead := by
  intro s base size e rest hadv hsize hq hle hfirst actual late skipped fired
  have hexec := exec_firing hadv hq hle hfirst
  have hlate : isAfter (Advance.target ⟨base, size⟩) e.fireTime = late := isAfter_target hle hsize
  have hgone (left missed : Nat) (h : afterFiring (Advance.target ⟨base, size⟩) e = ⟨none, left, missed⟩) :
      exec .firing s = .next (fired none left missed) := by
    rw [hexec, fireEntry, tableAfter, h, hlate]
    rfl
  have hput (e' : CueEntry) (left missed : Nat) (h : afterFiring (Advance.target ⟨base, size⟩) e = ⟨some e', left, missed⟩) :
      exec .firing s = .next (fired (some e') left missed) := by
    rw [hexec, fireEntry, tableAfter, h, hlate]
    rfl
  refine ⟨fun hr => hgone 0 0 ?_, fun r k hr _ hk hlow hhigh => ?_⟩
  · rw [afterFiring, hr]
  · have hdist := Advance.distance_target (adv := ⟨base, size⟩) hle hsize
    have hafter := afterFiring_of_repeat hr hk (hlow.trans_eq hdist.symm) (hdist.trans_lt hhigh)
    refine ⟨fun hout => hgone _ _ ?_, fun hin => hput _ _ _ ?_⟩
    · rw [hafter, if_neg (not_le.2 hout)]
    · rw [hafter, if_pos hin]

/-! ### Restores in their turn -/

theorem exec_restore {s : State} {base : Time} {size : Nat} {first : Restore} (hadv : s.work.advance = some ⟨base, size⟩)
    (hfirst : first ∈ s.points.pulses) (hle : distance first.time base ≤ size)
    (hmin : ∀ r ∈ s.points.pulses, distance first.time base ≤ distance r.time base)
    (hhead : ∀ e rest, s.cues.armed = e :: rest → distance first.time base < distance e.fireTime base) :
    exec .restore s = .next (s.withPoints (applyRestores ⟨base, size⟩ (distance first.time base) s.points)) := by
  have hnext : nextDueItem ⟨base, size⟩ s = some (.restores (distance first.time base)) :=
    (nextDueItem_eq_restores_iff ..).2 ⟨hle, ⟨first, hfirst, rfl⟩, hmin, hhead⟩
  have hitem : s.dueItem = some (⟨base, size⟩, .restores (distance first.time base)) := by
    rw [State.dueItem, hadv]
    dsimp only
    rw [hnext]
    rfl
  change execRestore s = _
  rw [execRestore, hitem]

theorem level_setRestored_of_mem {rs : List Restore} {r : Restore} (h : (rs.map (fun r => r.point)).Nodup) (hr : r ∈ rs)
    (p : Points) : (setRestored rs p).level r.point = r.level := by
  induction rs generalizing p with
  | nil => cases hr
  | cons x rs ih =>
    obtain ⟨hx, hnodup⟩ := List.nodup_cons.1 h
    rcases List.mem_cons.1 hr with rfl | hr
    · have hnone : rs.find? (fun y => y.point == r.point) = none :=
        List.find?_eq_none.2 fun y hy hyr => hx (List.mem_map.2 ⟨y, hy, eq_of_beq hyr⟩)
      rw [setRestored, level_setRestored rs _ hnodup, hnone, setLevel_level, if_pos rfl]
      rfl
    · exact ih hnodup hr _

theorem level_setRestored_of_notMem {rs : List Restore} (h : (rs.map (fun r => r.point)).Nodup) {i : Fin 16}
    (hi : ∀ r ∈ rs, r.point ≠ i) (p : Points) : (setRestored rs p).level i = p.level i := by
  have hnone : rs.find? (fun y => y.point == i) = none :=
    List.find?_eq_none.2 fun y hy hyi => hi y hy (eq_of_beq hyi)
  rw [level_setRestored rs p h, hnone]
  rfl

/-- Settles O44. -/
theorem restoresAreAppliedInTheirTurn : Obligations.RestoresAreAppliedInTheirTurn := by
  intro s base size first hadv hfirst hle hmin hhead hnodup
  have hdue : ((s.points.pulses.filter (fun r => distance r.time base == distance first.time base)).map (fun r => r.point)).Nodup :=
    hnodup.sublist (List.filter_sublist.map _)
  refine ⟨_, exec_restore hadv hfirst hle hmin hhead, ?_, ?_, fun r hr hd => ?_, fun i hi => ?_⟩
  · exact setRestored_owners _ _
  · exact List.filter_congr fun r _ => by rw [decide_not]; rfl
  · exact level_setRestored_of_mem hdue (List.mem_filter.2 ⟨hr, by simpa using hd⟩) _
  · refine level_setRestored_of_notMem hdue (fun r hr => ?_) _
    obtain ⟨hmem, hd⟩ := List.mem_filter.1 hr
    exact hi r hmem (by simpa using hd)

end Sys2Proof.Machine
end

section
/-! SUPPORT. The evaluation point (R113 to R120): damaged frames, header tests, and the report of a good frame beside its owner's answer,
in either order (R119 to R121). -/

namespace Sys2Proof.Machine

/-! ### Lead and horizon -/

/-- Settles O45. -/
theorem leadAndHorizon : Obligations.LeadAndHorizon := by
  intro minLead fire now hmin hmax d
  have hd : distance fire now = d := rfl
  have hhorizon : Config.horizon = 2 ^ 24 := rfl
  unfold leadVerdict
  rw [hd, hhorizon]
  refine ⟨fun h1 h2 => if_pos (by omega), fun h => if_pos (by omega), fun h1 h2 => ?_, fun h1 h2 => ?_⟩
  · rw [if_neg (by omega), if_neg (by omega)]
  · rw [if_neg (by omega), if_pos (by omega)]

/-! ### Damaged frames and header tests -/

/-- Settles O46. -/
theorem damagedFrameIsVetoed : Obligations.DamagedFrameIsVetoed := by
  intro s hlast hcheck
  rw [exec_evaluationPoint_of_atLastCheckBit s hlast, evaluationPoint_eq_decideAnswer, decide_eq_false hcheck, hlast]
  rfl

/-- R115, R116: the header tests, read one way and the other. -/
theorem headerStatusOf_good {kind : BitVec 3} {sender number : Byte} {mode : ScopeMode} {length : Nat} (hk : kind.toNat < 4)
    (h0 : sender ≠ 0) (h63 : sender ≠ 63) (hl : length < 25) (hg : mode = .group → number ≠ 255)
    (hs : mode = .station → number ≠ 0 ∧ number.toNat < 63) (hb : kind = 0 → mode = .group ∧ number = 0) :
    headerStatusOf kind sender ⟨mode, number⟩ length = .good := by
  have hlength : ¬Config.bodyMax < length := not_lt.2 (Nat.le_of_lt_succ hl)
  have hstation : ¬(mode = .station ∧ (number = 0 ∨ 63 ≤ number.toNat)) := fun ⟨hm, hn⟩ =>
    hn.elim (hs hm).1 (not_le.2 (hs hm).2)
  unfold headerStatusOf
  rw [if_neg (not_le.2 hk), if_neg (not_or.2 ⟨h0, h63⟩), if_neg hlength, if_neg fun h => hg h.1 h.2, if_neg hstation,
    if_neg fun h => h.2 (hb h.1)]

theorem headerStatusOf_form {kind : BitVec 3} {sender number : Byte} {mode : ScopeMode} {length : Nat} (hk : kind.toNat < 4)
    (h : sender = 0 ∨ sender = 63 ∨ 25 ≤ length ∨ (mode = .group ∧ number = 255) ∨
      (mode = .station ∧ (number = 0 ∨ 63 ≤ number.toNat)) ∨ (kind = 0 ∧ (mode = .station ∨ number ≠ 0))) :
    headerStatusOf kind sender ⟨mode, number⟩ length = .form := by
  unfold headerStatusOf
  rw [if_neg (not_le.2 hk)]
  by_cases hsender : sender = 0 ∨ sender = 63
  · rw [if_pos hsender]
  · by_cases hlength : Config.bodyMax < length
    · rw [if_neg hsender, if_pos hlength]
    · by_cases hgroup : mode = .group ∧ number = 255
      · rw [if_neg hsender, if_neg hlength, if_pos hgroup]
      · by_cases hstation : mode = .station ∧ (number = 0 ∨ 63 ≤ number.toNat)
        · rw [if_neg hsender, if_neg hlength, if_neg hgroup, if_pos hstation]
        · have hbeacon : kind = 0 ∧ (mode = .station ∨ number ≠ 0) := by
            rcases h with h | h | h | h | h | h
            · exact absurd (.inl h) hsender
            · exact absurd (.inr h) hsender
            · exact absurd (Nat.lt_of_succ_le h) hlength
            · exact absurd h hgroup
            · exact absurd h hstation
            · exact h
          have hother : kind = 0 ∧ ¬(mode = .group ∧ number = 0) :=
            ⟨hbeacon.1, fun ⟨hm, hn⟩ => hbeacon.2.elim (fun h => by rw [hm] at h; cases h) fun h => h hn⟩
          rw [if_neg hsender, if_neg hlength, if_neg hgroup, if_neg hstation, if_pos hother]

/-- R115, R116, R120: an intact frame whose header fails is answered NONE and reported. -/
theorem evaluationPoint_of_badHeader {s : State} {kind : BitVec 3} {sender : Byte} {scope : Scope} {length : Nat}
    (hcheck : s.rxCheck = s.decoder.checkAcc) (hkind : s.decoder.kind = some kind) (hsender : s.decoder.sender = some sender)
    (hscope : s.decoder.scope = scope) (hlength : s.decoder.length = some length) {status : HeaderStatus} {cause : LineErrorCause}
    (hbad : (status = .kind ∧ cause = .kind) ∨ (status = .form ∧ cause = .form))
    (hheader : headerStatusOf kind sender scope length = status) :
    evaluationPoint s =
      notify (.lineError cause none .answering s.line.position s.line.role (some kind) (some sender) s.clock.lineTime)
        (((s.withWork { s.work with evaluate := false }).withLine s.line.atEvaluation).withDecoder
          { s.decoder with checkStatus := .intact, headerStatus := status, answer := some .none }) := by
  have hjudged : s.decoder.judged true s.line.atEvaluation s.station =
      { s.decoder with checkStatus := .intact, headerStatus := status } := by
    rcases hbad with ⟨rfl, -⟩ | ⟨rfl, -⟩ <;> simp [Decoder.judged, hkind, hsender, hscope, hlength, hheader]
  rw [evaluationPoint_eq_decideAnswer, decide_eq_true hcheck, hjudged, ← hkind, ← hsender]
  rcases hbad with ⟨rfl, rfl⟩ | ⟨rfl, rfl⟩ <;> rfl

/-- Settles O47. -/
theorem headerTestsOfAnIntactFrame : Obligations.HeaderTestsOfAnIntactFrame := by
  intro s kind sender number mode length hlast hcheck hkind hsender hmode hnumber hlength line bad
  have hexec := exec_evaluationPoint_of_atLastCheckBit s hlast
  have hscope : s.decoder.scope = ⟨mode, number⟩ := by rw [Decoder.scope, hmode, hnumber]; rfl
  have hwork : s.withWork { s.work with evaluate := false } = s.withWork Work.none := by rw [hlast]; rfl
  refine ⟨fun h4 => ?_, fun hk h => ?_, fun hk h0 h63 hl hg hs hb => ?_⟩
  · rw [hexec, evaluationPoint_of_badHeader hcheck hkind hsender hscope hlength (.inl ⟨rfl, rfl⟩) (if_pos h4), hwork]
  · rw [hexec, evaluationPoint_of_badHeader hcheck hkind hsender hscope hlength (.inr ⟨rfl, rfl⟩) (headerStatusOf_form hk h),
      hwork]
  · have hgood : s.goodFrame kind sender ⟨mode, number⟩ :=
      ⟨hcheck, hkind, hsender, hmode, hnumber, by rw [hlength]; exact headerStatusOf_good hk h0 h63 hl hg hs hb⟩
    have hdecoder : ∃ a, (evaluationPoint s).decoder =
        { s.decoder.judged true s.line.atEvaluation s.station with answer := some a } := by
      rw [hgood.evaluationPoint_eq]
      rcases eitherOrder_cases reportFrame answerFrame _ with e | e | e <;> rw [e]
      · obtain ⟨a, ha⟩ := answersOnly_answerFrame (reportFrame _)
        exact ⟨a, by rw [ha, reportFrame_decoder]; rfl⟩
      · obtain ⟨a, ha⟩ := answersOnly_answerFrame (State.withOrder _ _)
        exact ⟨a, by rw [reportFrame_decoder, ha]; rfl⟩
      · obtain ⟨a, ha⟩ := answersOnly_answerFrame (reportFrame _)
        exact ⟨a, by rw [ha, reportFrame_decoder]; rfl⟩
    obtain ⟨a, ha⟩ := hdecoder
    refine ⟨_, hexec, by rw [ha, hgood.judged_eq], by rw [ha, hgood.judged_eq], by rw [ha]; simp, ?_⟩
    rw [hgood.evaluationPoint_eq]
    exact (Touches.eitherOrder (bs := [.station, .peers, .port, .decoder, .clock, .cues])
      (fun t => (touches_reportFrame t).mono (by simp)) (fun t => (touches_answerFrame t).mono (by simp)) _).line (by simp)

end Sys2Proof.Machine
end

section
/-! SUPPORT. The report of a good frame beside its owner's answer, in either order (R119 to R121). Each is told by what it sets and the
notices it queues, so that the orders differ at the host port alone. -/

namespace Sys2Proof.Machine

/-! ### The report -/

/-- R166: the duplicate-ID mark after the report of a frame. -/
def State.reportedDup (s : State) : Bool :=
  if s.decoder.ownFrame = false ∧ s.decoder.foreignOwnId = true ∧ (s.station.state = .listen ∨ s.station.state = .active) then true
  else s.station.dupPending

/-- R119: the frame is another station's and tells of a peer. -/
def Decoder.tellsPeer (d : Decoder) : Bool := !d.ownFrame && !d.foreignOwnId

/-- R162: the peer record that the report makes of its sender's. -/
def State.heardRecord (s : State) : PeerRecord :=
  (s.peer (s.decoder.sender.getD 0)).heard s.clock.lineTime (s.decoder.kind == some 0)

/-- R162: the peer table after the report of a frame. -/
def State.reportedPeers (s : State) : List PeerRecord :=
  if s.decoder.tellsPeer then s.peers.set ((s.decoder.sender.getD 0).toNat - 1) s.heardRecord else s.peers

/-- R165: the notices of the report of a frame. -/
def State.reportNotices (s : State) : List Notice :=
  if s.decoder.tellsPeer ∧ (s.peer (s.decoder.sender.getD 0)).presence ≠ .present then
    [.peer (s.decoder.sender.getD 0) (s.peer (s.decoder.sender.getD 0)).presence .present s.heardRecord.lastHeard
      s.heardRecord.framesHeard s.clock.lineTime]
  else []

/-- The station with a report taken: its mark, the peer table, the port, and the count of free values. -/
def State.met (s : State) (dup : Bool) (peers : List PeerRecord) (port : Port) (order : Nat) : State :=
  (((s.withStation { s.station with dupPending := dup }).withPeers peers).withPort port).withOrder order

theorem reportFrame_eq (s : State) : reportFrame s =
    s.met s.reportedDup s.reportedPeers (s.port.pushAll s.station s.reportNotices) s.order := by
  unfold reportFrame State.reportedDup State.reportedPeers State.reportNotices Decoder.tellsPeer
  cases hown : s.decoder.ownFrame with
  | true => rfl
  | false =>
    cases hforeign : s.decoder.foreignOwnId with
    | true =>
      unfold raiseDuplicate
      cases hstate : s.station.state <;> simp only [Bool.false_eq_true, if_false, if_true, true_and, and_true, or_true,
        reduceCtorEq, or_false, Bool.not_false, Bool.not_true, Bool.and_false, false_and] <;> rfl
    | false =>
      unfold hearPeer
      dsimp only
      simp only [Bool.false_eq_true, if_false, false_and, and_false, Bool.not_false, Bool.and_self, if_true, true_and]
      by_cases hp : (s.peer (s.decoder.sender.getD 0)).presence = .present
      · rw [if_pos hp, if_neg fun h => h hp]
        rfl
      · rw [if_neg hp, if_pos hp]
        rfl

theorem length_reportNotices_le (s : State) : s.reportNotices.length ≤ 1 := by
  unfold State.reportNotices
  split <;> simp

/-! ### The answer -/

/-- The station with an answer given: the decoder's answer, the cue table, the clock record and the port. -/
def State.replied (s : State) (a : Answer) (cues : CueTable) (clock : Clock) (port : Port) : State :=
  (((s.answer a).withCues cues).withClock clock).withPort port

/-- An owner's answer to the frame that `s` holds, before or after the report: what it sets, and what it does to the host port. -/
structure Replies (f : State → State) (s : State) (a : Port → Answer) (cues : CueTable) (clock : Clock) (g : Port → Port) : Prop where
  eq : ∀ dup peers port order,
    f (s.met dup peers port order) = (s.met dup peers port order).replied (a port) cues clock (g port)
  lineTime : clock.lineTime = s.clock.lineTime

theorem Replies.congr {f f' : State → State} {s : State} {a : Port → Answer} {cues : CueTable} {clock : Clock} {g : Port → Port}
    (h : Replies f s a cues clock g) (hf : ∀ dup peers port order, f' (s.met dup peers port order) = f (s.met dup peers port order)) :
    Replies f' s a cues clock g where
  eq dup peers port order := (hf dup peers port order).trans (h.eq dup peers port order)
  lineTime := h.lineTime

section
variable (s : State) (dup dup' : Bool) (peers peers' : List PeerRecord) (port port' : Port) (order order' : Nat)

@[simp] theorem State.met_decoder : (s.met dup peers port order).decoder = s.decoder := rfl
@[simp] theorem State.met_clock : (s.met dup peers port order).clock = s.clock := rfl
@[simp] theorem State.met_port : (s.met dup peers port order).port = port := rfl
@[simp] theorem State.met_peers : (s.met dup peers port order).peers = peers := rfl

theorem State.withOrder_met : (s.withOrder order').met dup peers port order = s.met dup peers port order := rfl

theorem State.withOrder_eq_met : s.withOrder order = s.met s.station.dupPending s.peers s.port order := rfl

variable (a : Answer) (cues : CueTable) (clock : Clock)

@[simp] theorem State.replied_port : (s.replied a cues clock port).port = port := rfl

theorem State.replied_met : ((s.met dup' peers' port' order').replied a cues clock port).met dup peers port order =
    (s.met dup peers port order).replied a cues clock port := rfl

theorem State.replied_tellsPeer : (s.replied a cues clock port).decoder.tellsPeer = s.decoder.tellsPeer := rfl

theorem State.replied_heardRecord (h : clock.lineTime = s.clock.lineTime) :
    (s.replied a cues clock port).heardRecord = s.heardRecord :=
  congrArg (fun t => (s.peer (s.decoder.sender.getD 0)).heard t (s.decoder.kind == some 0)) h

theorem State.replied_reportedPeers (h : clock.lineTime = s.clock.lineTime) :
    (s.replied a cues clock port).reportedPeers = s.reportedPeers := by
  unfold State.reportedPeers
  rw [s.replied_heardRecord port a cues clock h]
  rfl

theorem State.replied_reportNotices (h : clock.lineTime = s.clock.lineTime) :
    (s.replied a cues clock port).reportNotices = s.reportNotices := by
  unfold State.reportNotices
  rw [s.replied_heardRecord port a cues clock h, ← h]
  rfl

theorem State.replied_reportedDup : (s.replied a cues clock port).reportedDup = s.reportedDup := rfl

end

/-- The report after the answer. -/
theorem reportFrame_replied (s : State) (a : Answer) (cues : CueTable) (clock : Clock) (port : Port) (n : Nat)
    (h : clock.lineTime = s.clock.lineTime) :
    reportFrame ((s.withOrder n).replied a cues clock port) =
      (s.met s.reportedDup s.reportedPeers (port.pushAll s.station s.reportNotices) n).replied a cues clock
        (port.pushAll s.station s.reportNotices) := by
  rw [reportFrame_eq, State.replied_reportedDup, (s.withOrder n).replied_reportedPeers port a cues clock h,
    (s.withOrder n).replied_reportNotices port a cues clock h]
  rfl

/-- R119 to R121: report and answer in either order. -/
theorem Replies.evaluated {s : State} {a : Port → Answer} {cues : CueTable} {clock : Clock} {g : Port → Port}
    (h : Replies answerFrame s a cues clock g) : ∃ n p x,
      ((x = a (s.port.pushAll s.station s.reportNotices) ∧ p = g (s.port.pushAll s.station s.reportNotices)) ∨
        (x = a s.port ∧ p = (g s.port).pushAll s.station s.reportNotices)) ∧
      eitherOrder reportFrame answerFrame s = (s.met s.reportedDup s.reportedPeers p n).replied x cues clock p := by
  have hreported (n : Nat) : answerFrame (reportFrame (s.withOrder n)) =
      (s.met s.reportedDup s.reportedPeers (g (s.port.pushAll s.station s.reportNotices)) n).replied
        (a (s.port.pushAll s.station s.reportNotices)) cues clock (g (s.port.pushAll s.station s.reportNotices)) := by
    have hreport : reportFrame (s.withOrder n) =
        s.met s.reportedDup s.reportedPeers (s.port.pushAll s.station s.reportNotices) n := reportFrame_eq _
    rw [hreport, h.eq]
    rfl
  have hanswered (n : Nat) : reportFrame (answerFrame (s.withOrder n)) =
      (s.met s.reportedDup s.reportedPeers ((g s.port).pushAll s.station s.reportNotices) n).replied
        (a s.port) cues clock ((g s.port).pushAll s.station s.reportNotices) := by
    have heq : answerFrame (s.withOrder n) = (s.withOrder n).replied (a s.port) cues clock (g s.port) := by
      rw [s.withOrder_eq_met n, h.eq]
    rw [heq, reportFrame_replied s _ _ _ _ n h.lineTime]
  rcases eitherOrder_cases reportFrame answerFrame s with e | e | e
  · exact ⟨_, _, _, .inl ⟨rfl, rfl⟩, e.trans (hreported s.order)⟩
  · exact ⟨_, _, _, .inr ⟨rfl, rfl⟩, e.trans (hanswered _)⟩
  · exact ⟨_, _, _, .inl ⟨rfl, rfl⟩, e.trans (hreported _)⟩

end Sys2Proof.Machine
end

section
/-! SUPPORT. The owners' answers case by case (R21 to R31, R38, R42, R75, R82, R118, R174), the report beside them (R119, R162, R165, R166), and
the offers of CUE frames (R25 to R31). -/

namespace Sys2Proof.Machine

/-! ### Answers, case by case -/

section
variable {s : State}

theorem answerFrame_of_beacon (hk : s.decoder.kind = some 0) : answerFrame s = answerBeacon s := by
  unfold answerFrame
  rw [hk]
  rfl

theorem answerFrame_of_unaddressed {k : BitVec 3} (hk : s.decoder.kind = some k) (h0 : k ≠ 0) (ha : s.decoder.addressed = false) :
    answerFrame s = s.answer .none := by
  unfold answerFrame
  rw [hk]
  dsimp only
  rw [if_neg h0, ha]
  rfl

theorem answerFrame_of_withdraw (hk : s.decoder.kind = some 1) (ha : s.decoder.addressed = true) :
    answerFrame s = answerWithdraw s := by
  unfold answerFrame
  rw [hk, ha]
  rfl

theorem answerFrame_of_cue (hk : s.decoder.kind = some 2) (ha : s.decoder.addressed = true) : answerFrame s = answerCue s := by
  unfold answerFrame
  rw [hk, ha]
  rfl

theorem answerFrame_of_message {k : BitVec 3} (hk : s.decoder.kind = some k) (h0 : k ≠ 0) (h1 : k ≠ 1) (h2 : k ≠ 2)
    (ha : s.decoder.addressed = true) : answerFrame s = answerMessage s := by
  unfold answerFrame
  rw [hk]
  dsimp only
  rw [if_neg h0, ha, if_neg h1, if_neg h2]
  rfl

theorem answerBeacon_of_malformed (h : parseBeacon s.rxBody = none) :
    answerBeacon s = notify (lineErrorNotice .form none s) (s.answer .none) := by
  unfold answerBeacon
  rw [h]

theorem answerBeacon_of_otherPeriod {t : Time} {code : Byte} {st : ClockState} (h : parseBeacon s.rxBody = some (t, code, st))
    (hcode : code ≠ s.station.setup.periodCode) : answerBeacon s =
      notify (.configMismatch (s.decoder.sender.getD 0) code s.station.setup.periodCode s.clock.lineTime) (s.answer .none) := by
  unfold answerBeacon
  rw [h]
  exact if_pos hcode

theorem answerBeacon_of_own {t : Time} {code : Byte} {st : ClockState} (h : parseBeacon s.rxBody = some (t, code, st))
    (hcode : code = s.station.setup.periodCode) (hown : s.decoder.ownFrame = true ∨ s.decoder.foreignOwnId = true) :
    answerBeacon s = s.answer .take := by
  unfold answerBeacon
  rw [h]
  dsimp only
  rw [if_neg (not_not.2 hcode), if_pos hown]

theorem answerBeacon_of_other {t : Time} {code : Byte} {st : ClockState} (h : parseBeacon s.rxBody = some (t, code, st))
    (hcode : code = s.station.setup.periodCode) (hown : ¬(s.decoder.ownFrame = true ∨ s.decoder.foreignOwnId = true)) :
    answerBeacon s = (s.withClock { s.clock with
      beacon := some ⟨s.decoder.sender.getD 0, t, st, s.clock.markTime⟩ }).answer .take := by
  unfold answerBeacon
  rw [h]
  dsimp only
  rw [if_neg (not_not.2 hcode), if_neg hown]

theorem answerCue_of_evaluated (hs : s.station.state = .active) (hc : s.clock.state ≠ .unsynced) : answerCue s = evaluateCue s := by
  unfold answerCue
  rw [hs]
  exact if_pos ((synced_iff s).2 hc)

/-- R23, R31: why this station misses a CUE. -/
def missedCauseOf (state : StationState) : MissedCause :=
  if state = .active then .unsynced else if state = .silent then .silent else .listening

theorem answerCue_of_missed (h : s.station.state = .active → s.clock.state = .unsynced) :
    answerCue s = missCue (missedCauseOf s.station.state) s := by
  unfold answerCue
  cases hs : s.station.state with
  | active => exact if_neg (by rw [synced_iff]; simpa using h hs)
  | silent | listen | setup | halted => rfl

section
variable {v : CueVerdict} (h : judgeCue s.cues s.station.setup.minLead (s.decoder.sender.getD 0) s.decoder.scope s.clock.lineTime
  s.rxBody = v)
include h

theorem evaluateCue_of_refuse {r : RefusalReason} (hv : v = .refuse r) : evaluateCue s =
    notify (.offerRefused .cue (offerKey s) r (bodyFireTime s.rxBody) s.clock.lineTime)
      ((s.record .cue (offerKey s) .veto .none).answer .veto) := by
  unfold evaluateCue
  rw [h, hv]

theorem evaluateCue_of_held (hv : v = .held) : evaluateCue s = (s.record .cue (offerKey s) .take .held).answer .take := by
  unfold evaluateCue
  rw [h, hv]

theorem evaluateCue_of_new {b : CueBody} (hv : v = .new b) : evaluateCue s = ((s.withCues { s.cues with
    provisional := some (provisionalOf (s.decoder.sender.getD 0) s.decoder.scope s.decoder.ownFrame b) }).record
      .cue (offerKey s) .take .newEntry).answer .take := by
  unfold evaluateCue
  rw [h, hv]

end

theorem answerWithdraw_of_active (hs : s.station.state = .active) : answerWithdraw s = evaluateWithdraw s := by
  unfold answerWithdraw
  rw [hs]

theorem answerWithdraw_of_silent (hs : s.station.state = .silent) : answerWithdraw s = missWithdraw s := by
  unfold answerWithdraw
  rw [hs]

theorem answerWithdraw_of_other (ha : s.station.state ≠ .active) (hs : s.station.state ≠ .silent) :
    answerWithdraw s = s.answer .none := by
  unfold answerWithdraw
  cases h : s.station.state with
  | active => exact absurd h ha
  | silent => exact absurd h hs
  | listen | setup | halted => rfl

theorem evaluateWithdraw_of_badLength (h : s.rxBody.length ≠ 1) : evaluateWithdraw s =
    notify (.offerRefused .withdraw (offerKey s) .form 0 s.clock.lineTime)
      ((s.record .withdraw (offerKey s) .veto .none).answer .veto) := if_pos h

theorem evaluateWithdraw_of_notHeld (hl : s.rxBody.length = 1) (h : s.cues.findArmed (offerKey s) = none) :
    evaluateWithdraw s = (s.record .withdraw (offerKey s) .none .none).answer .none := by
  unfold evaluateWithdraw
  rw [if_neg (not_not.2 hl), h]

theorem evaluateWithdraw_of_tooLate (hl : s.rxBody.length = 1) {e : CueEntry} (h : s.cues.findArmed (offerKey s) = some e)
    (hw : inLeadWindow s.station.setup.minLead e.fireTime s.clock.lineTime = true) : evaluateWithdraw s =
      notify (.offerRefused .withdraw (offerKey s) .tooLate e.fireTime s.clock.lineTime)
        ((s.record .withdraw (offerKey s) .veto .none).answer .veto) := by
  unfold evaluateWithdraw
  rw [if_neg (not_not.2 hl), h]
  exact if_pos hw

theorem evaluateWithdraw_of_marked (hl : s.rxBody.length = 1) {e : CueEntry} (h : s.cues.findArmed (offerKey s) = some e)
    (hw : inLeadWindow s.station.setup.minLead e.fireTime s.clock.lineTime = false) : evaluateWithdraw s =
      ((s.withCues { s.cues with armed := setMark (offerKey s) s.cues.armed }).record
        .withdraw (offerKey s) .take .marked).answer .take := by
  unfold evaluateWithdraw
  rw [if_neg (not_not.2 hl), h]
  exact if_neg (by rw [hw]; simp)

theorem missWithdraw_of_empty (h : s.rxBody = []) : missWithdraw s = s.answer .none := if_pos h

theorem missWithdraw_of_held (hb : s.rxBody ≠ []) {e : CueEntry} (h : s.cues.findArmed (offerKey s) = some e) :
    missWithdraw s = notify (.offerMissed .withdraw (offerKey s) .silent e.fireTime) (s.answer .none) := by
  unfold missWithdraw
  rw [if_neg hb, h]

theorem missWithdraw_of_notHeld (hb : s.rxBody ≠ []) (h : s.cues.findArmed (offerKey s) = none) :
    missWithdraw s = s.answer .none := by
  unfold missWithdraw
  rw [if_neg hb, h]

theorem answerMessage_of_inactive (h : s.station.state ≠ .active) : answerMessage s = s.answer .none := if_pos h

theorem answerMessage_of_empty (ha : s.station.state = .active) (h : s.rxBody = []) :
    answerMessage s = notify (lineErrorNotice .form none s) (s.answer .none) := by
  unfold answerMessage
  rw [if_neg (not_not.2 ha), if_pos h]

end

/-- R174: what a MESSAGE makes of the host port, and its answer. -/
def Port.reserving (p : Port) (r : Reservation) : Port :=
  if p.hasFree then { p with reservation := some r } else (p.mark NoticeClass.message.index).drop

def Port.messageAnswer (p : Port) : Answer := if p.hasFree then .take else .veto

theorem answerMessage_of_body {s : State} (ha : s.station.state = .active) (h : s.rxBody ≠ []) : answerMessage s =
    (s.withPort (s.port.reserving ⟨s.decoder.sender.getD 0, s.decoder.scope⟩)).answer s.port.messageAnswer := by
  unfold answerMessage Port.reserving Port.messageAnswer
  rw [if_neg (not_not.2 ha), if_neg h]
  cases s.port.hasFree <;> rfl

/-! ### Answers as replies -/

/-- An answer that queues these notices and no more. -/
abbrev RepliesWith (s : State) (a : Answer) (cues : CueTable) (clock : Clock) (ns : List Notice) : Prop :=
  Replies answerFrame s (fun _ => a) cues clock (fun p => p.pushAll s.station ns)

section
variable {s : State}

theorem repliesWith_unaddressed {k : BitVec 3} (hk : s.decoder.kind = some k) (h0 : k ≠ 0) (ha : s.decoder.addressed = false) :
    RepliesWith s .none s.cues s.clock [] :=
  ⟨fun _ _ _ _ => answerFrame_of_unaddressed hk h0 ha, rfl⟩

section
variable (hk : s.decoder.kind = some 0)
include hk

theorem repliesWith_beacon_malformed (h : parseBeacon s.rxBody = none) :
    RepliesWith s .none s.cues s.clock [lineErrorNotice .form none s] :=
  ⟨fun d q p n => (answerFrame_of_beacon (s := s.met d q p n) hk).trans (answerBeacon_of_malformed (s := s.met d q p n) h), rfl⟩

section
variable {t : Time} {code : Byte} {st : ClockState} (h : parseBeacon s.rxBody = some (t, code, st))
include h

theorem repliesWith_beacon_otherPeriod (hcode : code ≠ s.station.setup.periodCode) : RepliesWith s .none s.cues s.clock
    [.configMismatch (s.decoder.sender.getD 0) code s.station.setup.periodCode s.clock.lineTime] :=
  ⟨fun d q p n => (answerFrame_of_beacon (s := s.met d q p n) hk).trans (answerBeacon_of_otherPeriod (s := s.met d q p n) h hcode), rfl⟩

theorem repliesWith_beacon_own (hcode : code = s.station.setup.periodCode)
    (hown : s.decoder.ownFrame = true ∨ s.decoder.foreignOwnId = true) : RepliesWith s .take s.cues s.clock [] :=
  ⟨fun d q p n => (answerFrame_of_beacon (s := s.met d q p n) hk).trans (answerBeacon_of_own (s := s.met d q p n) h hcode hown), rfl⟩

theorem repliesWith_beacon_other (hcode : code = s.station.setup.periodCode)
    (hown : ¬(s.decoder.ownFrame = true ∨ s.decoder.foreignOwnId = true)) : RepliesWith s .take s.cues
      { s.clock with beacon := some ⟨s.decoder.sender.getD 0, t, st, s.clock.markTime⟩ } [] :=
  ⟨fun d q p n => (answerFrame_of_beacon (s := s.met d q p n) hk).trans (answerBeacon_of_other (s := s.met d q p n) h hcode hown), rfl⟩

end
end

section
variable (hk : s.decoder.kind = some 2) (ha : s.decoder.addressed = true)
include hk ha

theorem repliesWith_cue_missed (h : s.station.state = .active → s.clock.state = .unsynced) : RepliesWith s .none s.cues s.clock
    [.offerMissed .cue (offerKey s) (missedCauseOf s.station.state) (bodyFireTime s.rxBody)] :=
  ⟨fun d q p n => (answerFrame_of_cue (s := s.met d q p n) hk ha).trans (answerCue_of_missed (s := s.met d q p n) h), rfl⟩

section
variable (hs : s.station.state = .active) (hc : s.clock.state ≠ .unsynced)
include hs hc

theorem repliesWith_cue_refused {r : RefusalReason} (h : judgeCue s.cues s.station.setup.minLead (s.decoder.sender.getD 0)
    s.decoder.scope s.clock.lineTime s.rxBody = .refuse r) :
    RepliesWith s .veto { s.cues with offer := some ⟨.cue, offerKey s, .veto, .none⟩ } s.clock
      [.offerRefused .cue (offerKey s) r (bodyFireTime s.rxBody) s.clock.lineTime] :=
  ⟨fun d q p n => (answerFrame_of_cue (s := s.met d q p n) hk ha).trans ((answerCue_of_evaluated (s := s.met d q p n) hs hc).trans (evaluateCue_of_refuse (s := s.met d q p n) h rfl)), rfl⟩

theorem repliesWith_cue_held (h : judgeCue s.cues s.station.setup.minLead (s.decoder.sender.getD 0) s.decoder.scope
    s.clock.lineTime s.rxBody = .held) :
    RepliesWith s .take { s.cues with offer := some ⟨.cue, offerKey s, .take, .held⟩ } s.clock [] :=
  ⟨fun d q p n => (answerFrame_of_cue (s := s.met d q p n) hk ha).trans ((answerCue_of_evaluated (s := s.met d q p n) hs hc).trans (evaluateCue_of_held (s := s.met d q p n) h rfl)), rfl⟩

theorem repliesWith_cue_new {b : CueBody} (h : judgeCue s.cues s.station.setup.minLead (s.decoder.sender.getD 0) s.decoder.scope
    s.clock.lineTime s.rxBody = .new b) :
    RepliesWith s .take { s.cues with
      provisional := some (provisionalOf (s.decoder.sender.getD 0) s.decoder.scope s.decoder.ownFrame b),
      offer := some ⟨.cue, offerKey s, .take, .newEntry⟩ } s.clock [] :=
  ⟨fun d q p n => (answerFrame_of_cue (s := s.met d q p n) hk ha).trans ((answerCue_of_evaluated (s := s.met d q p n) hs hc).trans (evaluateCue_of_new (s := s.met d q p n) h rfl)), rfl⟩

end
end

section
variable (hk : s.decoder.kind = some 1) (ha : s.decoder.addressed = true)
include hk ha

theorem repliesWith_withdraw_other (hactive : s.station.state ≠ .active) (hsilent : s.station.state ≠ .silent) :
    RepliesWith s .none s.cues s.clock [] :=
  ⟨fun d q p n => (answerFrame_of_withdraw (s := s.met d q p n) hk ha).trans (answerWithdraw_of_other (s := s.met d q p n) hactive hsilent), rfl⟩

section
variable (hs : s.station.state = .silent)
include hs

theorem repliesWith_withdraw_missedEmpty (h : s.rxBody = []) : RepliesWith s .none s.cues s.clock [] :=
  ⟨fun d q p n => (answerFrame_of_withdraw (s := s.met d q p n) hk ha).trans ((answerWithdraw_of_silent (s := s.met d q p n) hs).trans (missWithdraw_of_empty (s := s.met d q p n) h)), rfl⟩

theorem repliesWith_withdraw_missedHeld (hb : s.rxBody ≠ []) {e : CueEntry} (h : s.cues.findArmed (offerKey s) = some e) :
    RepliesWith s .none s.cues s.clock [.offerMissed .withdraw (offerKey s) .silent e.fireTime] :=
  ⟨fun d q p n => (answerFrame_of_withdraw (s := s.met d q p n) hk ha).trans ((answerWithdraw_of_silent (s := s.met d q p n) hs).trans (missWithdraw_of_held (s := s.met d q p n) hb h)), rfl⟩

theorem repliesWith_withdraw_missedNotHeld (hb : s.rxBody ≠ []) (h : s.cues.findArmed (offerKey s) = none) :
    RepliesWith s .none s.cues s.clock [] :=
  ⟨fun d q p n => (answerFrame_of_withdraw (s := s.met d q p n) hk ha).trans ((answerWithdraw_of_silent (s := s.met d q p n) hs).trans (missWithdraw_of_notHeld (s := s.met d q p n) hb h)), rfl⟩

end

section
variable (hs : s.station.state = .active)
include hs

theorem repliesWith_withdraw_badLength (h : s.rxBody.length ≠ 1) :
    RepliesWith s .veto { s.cues with offer := some ⟨.withdraw, offerKey s, .veto, .none⟩ } s.clock
      [.offerRefused .withdraw (offerKey s) .form 0 s.clock.lineTime] :=
  ⟨fun d q p n => (answerFrame_of_withdraw (s := s.met d q p n) hk ha).trans ((answerWithdraw_of_active (s := s.met d q p n) hs).trans (evaluateWithdraw_of_badLength (s := s.met d q p n) h)),
    rfl⟩

theorem repliesWith_withdraw_notHeld (hl : s.rxBody.length = 1) (h : s.cues.findArmed (offerKey s) = none) :
    RepliesWith s .none { s.cues with offer := some ⟨.withdraw, offerKey s, .none, .none⟩ } s.clock [] :=
  ⟨fun d q p n => (answerFrame_of_withdraw (s := s.met d q p n) hk ha).trans ((answerWithdraw_of_active (s := s.met d q p n) hs).trans (evaluateWithdraw_of_notHeld (s := s.met d q p n) hl h)),
    rfl⟩

theorem repliesWith_withdraw_tooLate (hl : s.rxBody.length = 1) {e : CueEntry} (h : s.cues.findArmed (offerKey s) = some e)
    (hw : inLeadWindow s.station.setup.minLead e.fireTime s.clock.lineTime = true) :
    RepliesWith s .veto { s.cues with offer := some ⟨.withdraw, offerKey s, .veto, .none⟩ } s.clock
      [.offerRefused .withdraw (offerKey s) .tooLate e.fireTime s.clock.lineTime] :=
  ⟨fun d q p n => (answerFrame_of_withdraw (s := s.met d q p n) hk ha).trans
    ((answerWithdraw_of_active (s := s.met d q p n) hs).trans (evaluateWithdraw_of_tooLate (s := s.met d q p n) hl h hw)), rfl⟩

theorem repliesWith_withdraw_marked (hl : s.rxBody.length = 1) {e : CueEntry} (h : s.cues.findArmed (offerKey s) = some e)
    (hw : inLeadWindow s.station.setup.minLead e.fireTime s.clock.lineTime = false) :
    RepliesWith s .take { s.cues with
      armed := setMark (offerKey s) s.cues.armed, offer := some ⟨.withdraw, offerKey s, .take, .marked⟩ } s.clock [] :=
  ⟨fun d q p n => (answerFrame_of_withdraw (s := s.met d q p n) hk ha).trans
    ((answerWithdraw_of_active (s := s.met d q p n) hs).trans (evaluateWithdraw_of_marked (s := s.met d q p n) hl h hw)), rfl⟩

end
end

section
variable {k : BitVec 3} (hk : s.decoder.kind = some k) (h0 : k ≠ 0) (h1 : k ≠ 1) (h2 : k ≠ 2) (ha : s.decoder.addressed = true)
include hk h0 h1 h2 ha

theorem repliesWith_message_inactive (h : s.station.state ≠ .active) : RepliesWith s .none s.cues s.clock [] :=
  ⟨fun d q p n => (answerFrame_of_message (s := s.met d q p n) hk h0 h1 h2 ha).trans (answerMessage_of_inactive (s := s.met d q p n) h), rfl⟩

theorem repliesWith_message_empty (hs : s.station.state = .active) (h : s.rxBody = []) :
    RepliesWith s .none s.cues s.clock [lineErrorNotice .form none s] :=
  ⟨fun d q p n => (answerFrame_of_message (s := s.met d q p n) hk h0 h1 h2 ha).trans (answerMessage_of_empty (s := s.met d q p n) hs h), rfl⟩

theorem replies_message_body (hs : s.station.state = .active) (h : s.rxBody ≠ []) :
    Replies answerFrame s Port.messageAnswer s.cues s.clock (fun p => p.reserving ⟨s.decoder.sender.getD 0, s.decoder.scope⟩) :=
  ⟨fun d q p n => (answerFrame_of_message (s := s.met d q p n) hk h0 h1 h2 ha).trans (answerMessage_of_body (s := s.met d q p n) hs h), rfl⟩

end
end

end Sys2Proof.Machine
end

section
/-! SUPPORT. What the evaluation of a good frame comes to: the report of the frame and the offers of CUE frames (R21 to R31, R119, R162). -/

namespace Sys2Proof.Machine

/-! ### Runs of notices -/

theorem Port.mem_pushAll {t : Station} {p : Port} {ns : List Notice} {m : Notice} (h : m ∈ (p.pushAll t ns).notices) :
    m ∈ p.notices ∨ m ∈ ns := by
  induction ns generalizing p with
  | nil => exact .inl h
  | cons n ns ih =>
    rcases ih h with h | h
    · rcases p.push_cases (t.enables n.cls) n with ⟨-, hn, -⟩ | ⟨-, -, hn, -⟩ | ⟨-, -, hn, -⟩
      · rw [hn] at h; exact .inl h
      · rw [hn] at h
        rcases List.mem_append.1 h with h | h
        · exact .inl h
        · rw [List.mem_singleton.1 h]; exact .inr List.mem_cons_self
      · rw [hn] at h; exact .inl h
    · exact .inr (List.mem_cons_of_mem _ h)

theorem Port.mem_pushAll_of_mem {t : Station} {p : Port} {ns : List Notice} {m : Notice} (h : m ∈ p.notices) :
    m ∈ (p.pushAll t ns).notices := by
  obtain ⟨rest, hrest⟩ := Port.pushAll_prefix t p ns
  rw [hrest]
  exact List.mem_append_left _ h

/-- R172: with room, an enabled notice of a run is in the queue. -/
theorem Port.mem_pushAll_of_room {t : Station} {p : Port} {ns : List Notice} {m : Notice} (hroom : p.used + ns.length ≤ 16)
    (hm : m ∈ ns) (hon : t.enables m.cls = true) : m ∈ (p.pushAll t ns).notices := by
  rw [(p.pushAll_notices t ns hroom).1]
  exact List.mem_append_right _ (List.mem_filter.2 ⟨hm, hon⟩)

theorem Port.seen_pushAll_of_seen {t : Station} {p : Port} {ns : List Notice} {i : Nat} (h : p.seen.getLsbD i = true) :
    (p.pushAll t ns).seen.getLsbD i = true := by
  induction ns generalizing p with
  | nil => exact h
  | cons n ns ih =>
    refine ih ?_
    rw [p.push_seen, BitVec.getLsbD_or, h]
    rfl

theorem NoticeClass.index_lt (c : NoticeClass) : c.index < 16 := by cases c <;> decide

/-- R172, step 1: the classes of a run are marked. -/
theorem Port.seen_pushAll {t : Station} {p : Port} {ns : List Notice} {m : Notice} (hm : m ∈ ns) :
    (p.pushAll t ns).seen.getLsbD m.cls.index = true := by
  induction ns generalizing p with
  | nil => cases hm
  | cons n ns ih =>
    rcases List.mem_cons.1 hm with rfl | hm
    · refine Port.seen_pushAll_of_seen (ns := ns) ?_
      have hlt := m.cls.index_lt
      rw [p.push_seen, BitVec.getLsbD_or, BitVec.getLsbD_shiftLeft]
      simp [hlt]
    · exact ih hm

/-! ### The evaluation of a good frame -/

/-- R113 to R119: the station once the decoder has judged a good frame. -/
def State.judgedGood (s : State) (sender : Byte) (scope : Scope) : State :=
  ((s.withWork { s.work with evaluate := false }).withLine s.line.atEvaluation).withDecoder { s.decoder with
    checkStatus := .intact, headerStatus := .good, addressed := addresses s.station scope,
    foreignOwnId := decide (sender = s.station.id) && !(s.decoder.ownFrame && s.line.atEvaluation.arbitration == .won) }

section
variable {s : State} {kind : BitVec 3} {sender : Byte} {scope : Scope} (h : s.goodFrame kind sender scope)
include h

theorem State.goodFrame.evaluationPoint_judged :
    evaluationPoint s = eitherOrder reportFrame answerFrame (s.judgedGood sender scope) := by
  rw [h.evaluationPoint_eq, h.judged_eq]
  rfl

theorem State.goodFrame.sender_eq : (s.judgedGood sender scope).decoder.sender.getD 0 = sender := by
  obtain ⟨-, -, hsender, -⟩ := h
  exact congrArg (fun x => Option.getD x 0) hsender

theorem State.goodFrame.judgedScope_eq : (s.judgedGood sender scope).decoder.scope = scope := h.scope_eq

theorem State.goodFrame.offerKey_eq : offerKey (s.judgedGood sender scope) = ⟨sender, bodySerial s.rxBody⟩ :=
  congrArg (fun x => (⟨x, bodySerial s.rxBody⟩ : Key)) h.sender_eq

theorem State.goodFrame.kind_eq : (s.judgedGood sender scope).decoder.kind = some kind := by
  obtain ⟨-, hkind, -⟩ := h
  exact hkind

/-- R109: LINE_ERROR FORM of a good frame's body. -/
theorem State.goodFrame.lineErrorNotice_eq : lineErrorNotice .form none (s.judgedGood sender scope) =
    .lineError .form none .answering s.line.position s.line.role (some kind) (some sender) s.clock.lineTime := by
  obtain ⟨-, hkind, hsender, -⟩ := h
  rw [← hkind, ← hsender]
  rfl

end

/-- What the evaluation of a frame comes to at `t`, when its answer queues the notices `ns`: the answer, the cue table, the clock record, and
a run of those notices with the report's, in either order. -/
structure EvaluatedTo (j t : State) (a : Answer) (cues : CueTable) (clock : Clock) (ns : List Notice) : Prop where
  answer : t.decoder = { j.decoder with answer := some a }
  cues : t.cues = cues
  clock : t.clock = clock
  station : t.station = { j.station with dupPending := j.reportedDup }
  peers : t.peers = j.reportedPeers
  port : ∃ l, (l = j.reportNotices ++ ns ∨ l = ns ++ j.reportNotices) ∧ t.port = j.port.pushAll j.station l

theorem State.goodFrame.evaluatedTo {s : State} {kind : BitVec 3} {sender : Byte} {scope : Scope} (h : s.goodFrame kind sender scope)
    {a : Answer} {cues : CueTable} {clock : Clock} {ns : List Notice} (hr : RepliesWith (s.judgedGood sender scope) a cues clock ns) :
    EvaluatedTo (s.judgedGood sender scope) (evaluationPoint s) a cues clock ns := by
  obtain ⟨n, p, x, hcase, heq⟩ := hr.evaluated
  rw [h.evaluationPoint_judged, heq]
  rcases hcase with ⟨rfl, rfl⟩ | ⟨rfl, rfl⟩
  · exact ⟨rfl, rfl, rfl, rfl, rfl, _, .inl rfl, (Port.pushAll_append ..).symm⟩
  · exact ⟨rfl, rfl, rfl, rfl, rfl, _, .inr rfl, (Port.pushAll_append ..).symm⟩

namespace EvaluatedTo
variable {j t : State} {a : Answer} {cues : CueTable} {clock : Clock} {ns : List Notice}
  (h : EvaluatedTo j t a cues clock ns)
include h

theorem answer_eq : t.decoder.answer = some a := by rw [h.answer]

/-- R171, R172: with two records free, the answer's one notice is in the queue. -/
theorem mem {m : Notice} (hm : m ∈ ns) (hns : ns.length ≤ 1) (hroom : j.port.used + 2 ≤ 16) (hon : j.station.enables m.cls = true) :
    m ∈ t.port.notices := by
  obtain ⟨l, hl, hport⟩ := h.port
  have hreport := length_reportNotices_le j
  rw [hport]
  rcases hl with rfl | rfl
  · exact Port.mem_pushAll_of_room (by rw [List.length_append]; omega) (List.mem_append_right _ hm) hon
  · exact Port.mem_pushAll_of_room (by rw [List.length_append]; omega) (List.mem_append_left _ hm) hon

/-- The report's notice too. -/
theorem mem_report {m : Notice} (hm : m ∈ j.reportNotices) (hns : ns.length ≤ 1) (hroom : j.port.used + 2 ≤ 16)
    (hon : j.station.enables m.cls = true) : m ∈ t.port.notices := by
  obtain ⟨l, hl, hport⟩ := h.port
  have hreport := length_reportNotices_le j
  rw [hport]
  rcases hl with rfl | rfl
  · exact Port.mem_pushAll_of_room (by rw [List.length_append]; omega) (List.mem_append_left _ hm) hon
  · exact Port.mem_pushAll_of_room (by rw [List.length_append]; omega) (List.mem_append_right _ hm) hon

theorem seen {m : Notice} (hm : m ∈ ns) : t.port.seen.getLsbD m.cls.index = true := by
  obtain ⟨l, hl, hport⟩ := h.port
  rw [hport]
  rcases hl with rfl | rfl
  · exact Port.seen_pushAll (List.mem_append_right _ hm)
  · exact Port.seen_pushAll (List.mem_append_left _ hm)

/-- No other notice is queued. -/
theorem mem_cases {m : Notice} (hm : m ∈ t.port.notices) : m ∈ j.port.notices ∨ m ∈ j.reportNotices ∨ m ∈ ns := by
  obtain ⟨l, hl, hport⟩ := h.port
  rw [hport] at hm
  rcases hl with rfl | rfl
  · exact (Port.mem_pushAll hm).imp_right List.mem_append.1
  · exact (Port.mem_pushAll hm).imp_right fun h => (List.mem_append.1 h).symm

end EvaluatedTo

theorem reportNotices_cls {s : State} {m : Notice} (h : m ∈ s.reportNotices) : m.cls = .peer := by
  unfold State.reportNotices at h
  split at h
  · rw [List.mem_singleton.1 h]
    rfl
  · cases h

/-- The evaluation point reaches the blocks of report and answer alone. -/
theorem touches_evaluation_good {s : State} {kind : BitVec 3} {sender : Byte} {scope : Scope} (h : s.goodFrame kind sender scope) :
    Touches [.order, .station, .peers, .port, .decoder, .clock, .cues, .work, .line] s (evaluationPoint s) := by
  rw [h.evaluationPoint_judged]
  have hjudged : Touches [.work, .line, .decoder] s (s.judgedGood sender scope) :=
    (Touches.withWork s _).andThen (.withLine _ _) |>.andThen (.withDecoder _ _) |>.mono (by simp)
  exact hjudged.andThen (Touches.eitherOrder (bs := [.station, .peers, .port, .decoder, .clock, .cues])
    (fun t => (touches_reportFrame t).mono (by simp)) (fun t => (touches_answerFrame t).mono (by simp)) _) |>.mono (by simp)

end Sys2Proof.Machine
end

section
/-! SUPPORT. The report of a good frame (R119, R162, R165, R166), whatever its owner answers. -/

namespace Sys2Proof.Machine

/-- What an answer does to the host port tells nothing of peers: a record at most, and no PEER notice. -/
structure TellsNoPeer (g : Port → Port) : Prop where
  used : ∀ p, (g p).used ≤ p.used + 1
  keeps : ∀ p, ∀ m ∈ p.notices, m ∈ (g p).notices
  adds : ∀ p, ∀ m ∈ (g p).notices, m ∈ p.notices ∨ m.cls ≠ .peer

theorem Port.used_pushAll_le (t : Station) (p : Port) (ns : List Notice) : (p.pushAll t ns).used ≤ p.used + ns.length := by
  induction ns generalizing p with
  | nil => exact Nat.le_refl _
  | cons n ns ih =>
    have h1 := ih (p.push (t.enables n.cls) n)
    have h2 := p.used_push_le (t.enables n.cls) n
    rw [List.length_cons]
    exact h1.trans (by omega)

theorem tellsNoPeer_pushAll (t : Station) {ns : List Notice} (hlen : ns.length ≤ 1) (hns : ∀ m ∈ ns, m.cls ≠ .peer) :
    TellsNoPeer (fun p => p.pushAll t ns) where
  used p := (p.used_pushAll_le t ns).trans (by omega)
  keeps _ _ hm := Port.mem_pushAll_of_mem hm
  adds _ m hm := (Port.mem_pushAll hm).imp_right (hns m)

theorem tellsNoPeer_reserving (r : Reservation) : TellsNoPeer (fun p => p.reserving r) where
  used p := by
    unfold Port.reserving
    split
    · unfold Port.used
      dsimp only
      simp only [Option.isSome_some, if_true]
      split <;> omega
    · exact Nat.le_succ _
  keeps p m hm := by
    unfold Port.reserving
    split <;> exact hm
  adds p m hm := by
    unfold Port.reserving at hm
    split at hm <;> exact .inl hm

/-- A reply that tells of no peer. -/
def HasReply (s : State) : Prop := ∃ a cues clock g, Replies answerFrame s a cues clock g ∧ TellsNoPeer g

theorem RepliesWith.hasReply {s : State} {a : Answer} {cues : CueTable} {clock : Clock} {ns : List Notice}
    (h : RepliesWith s a cues clock ns) (hlen : ns.length ≤ 1) (hns : ∀ m ∈ ns, m.cls ≠ .peer) : HasReply s :=
  ⟨_, _, _, _, h, tellsNoPeer_pushAll _ hlen hns⟩

theorem RepliesWith.hasReply_nil {s : State} {a : Answer} {cues : CueTable} {clock : Clock} (h : RepliesWith s a cues clock []) :
    HasReply s := h.hasReply (Nat.zero_le _) (fun _ hm => nomatch hm)

theorem RepliesWith.hasReply_one {s : State} {a : Answer} {cues : CueTable} {clock : Clock} {n : Notice}
    (h : RepliesWith s a cues clock [n]) (hn : n.cls ≠ .peer) : HasReply s :=
  h.hasReply (Nat.le_refl _) (fun m hm => by rwa [List.mem_singleton.1 hm])

theorem lineErrorNotice_cls (cause : LineErrorCause) (wire : Option Wire) (s : State) :
    (lineErrorNotice cause wire s).cls = .lineError := by
  unfold lineErrorNotice
  split <;> rfl

section
variable {s : State}

theorem hasReply_beacon (hk : s.decoder.kind = some 0) : HasReply s := by
  cases h : parseBeacon s.rxBody with
  | none => exact (repliesWith_beacon_malformed hk h).hasReply_one (by rw [lineErrorNotice_cls]; simp)
  | some x =>
    obtain ⟨t, code, st⟩ := x
    by_cases hcode : code = s.station.setup.periodCode
    · by_cases hown : s.decoder.ownFrame = true ∨ s.decoder.foreignOwnId = true
      · exact (repliesWith_beacon_own hk h hcode hown).hasReply_nil
      · exact (repliesWith_beacon_other hk h hcode hown).hasReply_nil
    · exact (repliesWith_beacon_otherPeriod hk h hcode).hasReply_one (by simp [Notice.cls])

theorem hasReply_cue (hk : s.decoder.kind = some 2) (ha : s.decoder.addressed = true) : HasReply s := by
  by_cases h : s.station.state = .active → s.clock.state = .unsynced
  · exact (repliesWith_cue_missed hk ha h).hasReply_one (by simp [Notice.cls])
  · obtain ⟨hs, hc⟩ := Classical.not_imp.1 h
    cases hj : judgeCue s.cues s.station.setup.minLead (s.decoder.sender.getD 0) s.decoder.scope s.clock.lineTime s.rxBody with
    | refuse r => exact (repliesWith_cue_refused hk ha hs hc hj).hasReply_one (by simp [Notice.cls])
    | held => exact (repliesWith_cue_held hk ha hs hc hj).hasReply_nil
    | new b => exact (repliesWith_cue_new hk ha hs hc hj).hasReply_nil

theorem hasReply_withdraw (hk : s.decoder.kind = some 1) (ha : s.decoder.addressed = true) : HasReply s := by
  by_cases hs : s.station.state = .active
  · by_cases hl : s.rxBody.length = 1
    · cases hf : s.cues.findArmed (offerKey s) with
      | none => exact (repliesWith_withdraw_notHeld hk ha hs hl hf).hasReply_nil
      | some e =>
        cases hw : inLeadWindow s.station.setup.minLead e.fireTime s.clock.lineTime with
        | true => exact (repliesWith_withdraw_tooLate hk ha hs hl hf hw).hasReply_one (by simp [Notice.cls])
        | false => exact (repliesWith_withdraw_marked hk ha hs hl hf hw).hasReply_nil
    · exact (repliesWith_withdraw_badLength hk ha hs hl).hasReply_one (by simp [Notice.cls])
  · by_cases hsilent : s.station.state = .silent
    · by_cases hb : s.rxBody = []
      · exact (repliesWith_withdraw_missedEmpty hk ha hsilent hb).hasReply_nil
      · cases hf : s.cues.findArmed (offerKey s) with
        | none => exact (repliesWith_withdraw_missedNotHeld hk ha hsilent hb hf).hasReply_nil
        | some e => exact (repliesWith_withdraw_missedHeld hk ha hsilent hb hf).hasReply_one (by simp [Notice.cls])
    · exact (repliesWith_withdraw_other hk ha hs hsilent).hasReply_nil

theorem hasReply_message {k : BitVec 3} (hk : s.decoder.kind = some k) (h0 : k ≠ 0) (h1 : k ≠ 1) (h2 : k ≠ 2)
    (ha : s.decoder.addressed = true) : HasReply s := by
  by_cases hs : s.station.state = .active
  · by_cases hb : s.rxBody = []
    · exact (repliesWith_message_empty hk h0 h1 h2 ha hs hb).hasReply_one (by rw [lineErrorNotice_cls]; simp)
    · exact ⟨_, _, _, _, replies_message_body hk h0 h1 h2 ha hs hb, tellsNoPeer_reserving _⟩
  · exact (repliesWith_message_inactive hk h0 h1 h2 ha hs).hasReply_nil

/-- R118: every frame has its answer. -/
theorem hasReply {k : BitVec 3} (hk : s.decoder.kind = some k) : HasReply s := by
  by_cases h0 : k = 0
  · exact hasReply_beacon (h0 ▸ hk)
  cases ha : s.decoder.addressed with
  | false => exact (repliesWith_unaddressed hk h0 ha).hasReply_nil
  | true =>
    by_cases h1 : k = 1
    · exact hasReply_withdraw (h1 ▸ hk) ha
    by_cases h2 : k = 2
    · exact hasReply_cue (h2 ▸ hk) ha
    · exact hasReply_message hk h0 h1 h2 ha

end

/-- What a good frame's report comes to beside any answer. -/
structure ReportedTo (j t : State) : Prop where
  station : t.station = { j.station with dupPending := j.reportedDup }
  peers : t.peers = j.reportedPeers
  foreign : t.decoder.foreignOwnId = j.decoder.foreignOwnId
  mem : ∀ m ∈ j.reportNotices, j.port.used + 2 ≤ 16 → j.station.enables m.cls = true → m ∈ t.port.notices
  others : j.reportNotices = [] → ∀ m ∈ t.port.notices, m.cls = .peer → m ∈ j.port.notices

theorem State.goodFrame.reportedTo {s : State} {kind : BitVec 3} {sender : Byte} {scope : Scope} (h : s.goodFrame kind sender scope) :
    ReportedTo (s.judgedGood sender scope) (evaluationPoint s) := by
  obtain ⟨a, cues, clock, g, hr, hg⟩ := hasReply h.kind_eq
  obtain ⟨n, p, x, hcase, heq⟩ := hr.evaluated
  rw [h.evaluationPoint_judged, heq]
  generalize s.judgedGood sender scope = j at *
  have hlen := length_reportNotices_le j
  refine ⟨rfl, rfl, rfl, fun m hm hroom hon => ?_, fun hnil m hm hcls => ?_⟩
  · rcases hcase with ⟨-, rfl⟩ | ⟨-, rfl⟩
    · exact hg.keeps _ _ (Port.mem_pushAll_of_room (by omega) hm hon)
    · have hused := hg.used j.port
      exact Port.mem_pushAll_of_room (by omega) hm hon
  · rcases hcase with ⟨-, rfl⟩ | ⟨-, rfl⟩
    · rw [hnil] at hm
      exact (hg.adds _ _ hm).resolve_right fun h => h hcls
    · rw [hnil] at hm
      exact (hg.adds _ _ hm).resolve_right fun h => h hcls

theorem sender_ne_zero_of_good {kind : BitVec 3} {sender : Byte} {scope : Scope} {length : Nat}
    (h : headerStatusOf kind sender scope length = .good) : sender ≠ 0 := by
  rintro rfl
  unfold headerStatusOf at h
  by_cases hk : 4 ≤ kind.toNat
  · rw [if_pos hk] at h
    cases h
  · rw [if_neg hk, if_pos (.inl rfl)] at h
    cases h

section
variable {s : State} {sender : Byte} (scope : Scope)

theorem judgedGood_foreignOwnId : (s.judgedGood sender scope).decoder.foreignOwnId =
    (decide (sender = s.station.id) && !(s.decoder.ownFrame && s.line.atEvaluation.arbitration == .won)) := rfl

/-- R119: a frame that tells of no peer and raises nothing leaves peers and station record. -/
theorem reported_of_notForeign (h : (s.judgedGood sender scope).decoder.foreignOwnId = false) :
    (s.judgedGood sender scope).reportedDup = s.station.dupPending := by
  unfold State.reportedDup
  rw [h]
  exact if_neg (by simp)

theorem atEvaluation_arbitration {l : Line} (h : l.arbitration = .contending ∨ l.arbitration = .won) :
    l.atEvaluation.arbitration = .won := by
  rcases h with h | h <;> simp [Line.atEvaluation, h]

end

/-- Settles O49. -/
theorem goodFrameIsReported : Obligations.GoodFrameIsReported := by
  intro s kind sender scope hlast hgood
  have hexec := exec_evaluationPoint_of_atLastCheckBit s hlast
  have hreport := hgood.reportedTo
  have hsender := hgood.sender_eq
  have hkind := hgood.kind_eq
  have hforeign := judgedGood_foreignOwnId (s := s) (sender := sender) scope
  refine ⟨fun r hown hid hr => ?_, fun hown hid => ?_, fun hown harb => ?_⟩
  · rw [decide_eq_false hid, Bool.false_and] at hforeign
    have htells : (s.judgedGood sender scope).decoder.tellsPeer = true := by
      rw [Decoder.tellsPeer, hforeign]
      change (!s.decoder.ownFrame && !false) = true
      rw [hown]
      rfl
    obtain ⟨-, -, -, -, -, hheader⟩ := hgood
    have hpos : 1 ≤ sender.toNat := by
      have := sender_ne_zero_of_good hheader
      bv_omega
    have hpeer : (s.judgedGood sender scope).peer sender = r := State.peer_of_getElem? (s.judgedGood sender scope) hpos hr
    have hrecord : (s.judgedGood sender scope).heardRecord =
        { presence := .present, lastHeard := s.clock.lineTime, framesHeard := min 65535 (r.framesHeard + 1), silenceCount := 0,
          beaconSender := decide (kind = 0) || r.beaconSender } := by
      rw [State.heardRecord, hsender, hpeer, hkind]
      rfl
    have hnotices : (s.judgedGood sender scope).reportNotices = if r.presence ≠ .present then
        [.peer sender r.presence .present s.clock.lineTime (min 65535 (r.framesHeard + 1)) s.clock.lineTime] else [] := by
      rw [State.reportNotices, htells, hsender, hpeer, hrecord]
      simp only [true_and]
      rfl
    refine ⟨_, hexec, hreport.station.trans ?_, hreport.peers.trans ?_, fun hp hon hroom => ?_, fun hp => ?_⟩
    · rw [reported_of_notForeign scope hforeign]
      rfl
    · rw [State.reportedPeers, htells, hsender, hrecord]
      rfl
    · rw [if_pos hp] at hnotices
      exact hreport.mem _ (by rw [hnotices]; exact List.mem_singleton_self _) hroom hon
    · rw [if_neg (not_not.2 hp)] at hnotices
      exact hreport.others hnotices
  · rw [decide_eq_true hid, hown, Bool.false_and, Bool.not_false, Bool.and_true] at hforeign
    have htells : (s.judgedGood sender scope).decoder.tellsPeer = false := by
      rw [Decoder.tellsPeer, hforeign, Bool.not_true, Bool.and_false]
    refine ⟨_, hexec, ?_, hreport.foreign.trans hforeign, hreport.station.trans ?_⟩
    · rw [hreport.peers, State.reportedPeers, htells]
      rfl
    · have hdup : (s.judgedGood sender scope).reportedDup =
          (s.station.dupPending || decide (s.station.state = .listen ∨ s.station.state = .active)) := by
        unfold State.reportedDup
        rw [hforeign]
        change (if s.decoder.ownFrame = false ∧ true = true ∧ (s.station.state = .listen ∨ s.station.state = .active) then true
          else s.station.dupPending) = _
        by_cases hs : s.station.state = .listen ∨ s.station.state = .active
        · rw [if_pos ⟨hown, rfl, hs⟩, decide_eq_true hs, Bool.or_true]
        · rw [if_neg fun h => hs h.2.2, decide_eq_false hs, Bool.or_false]
      rw [hdup]
      rfl
  · have hwon : (s.line.atEvaluation.arbitration == .won) = true := by
      rw [atEvaluation_arbitration harb]
      rfl
    rw [hown, hwon, Bool.and_self, Bool.not_true, Bool.and_false] at hforeign
    have htells : (s.judgedGood sender scope).decoder.tellsPeer = false := by
      rw [Decoder.tellsPeer]
      change (!s.decoder.ownFrame && _) = false
      rw [hown]
      rfl
    refine ⟨_, hexec, ?_, hreport.station.trans ?_, hreport.foreign.trans hforeign⟩
    · rw [hreport.peers, State.reportedPeers, htells]
      rfl
    · rw [reported_of_notForeign scope hforeign]
      rfl

end Sys2Proof.Machine
end

section
/-! SUPPORT. CUE offers at the evaluation point (R21 to R31). -/

namespace Sys2Proof.Machine

/-! ### The verdicts -/

section
variable {t : CueTable} {minLead : Nat} {sender : Byte} {scope : Scope} {now : Time} {body : List Byte}

theorem judgeCue_of_malformed (h : parseCue body = none) : judgeCue t minLead sender scope now body = .refuse .form := by
  unfold judgeCue
  rw [h]

theorem sameOffer_iff (e : CueEntry) (b : CueBody) (scope : Scope) : sameOffer e b scope = true ↔
    e.fireTime = b.fireTime ∧ e.scope = scope ∧ e.actions = b.actions ∧ e.rep = b.rep := by
  simp [sameOffer, and_assoc]

variable {b : CueBody} (hp : parseCue body = some b)
include hp

theorem judgeCue_of_same {e : CueEntry} (hf : t.find ⟨sender, b.serial⟩ = some e)
    (h : e.fireTime = b.fireTime ∧ e.scope = scope ∧ e.actions = b.actions ∧ e.rep = b.rep) :
    judgeCue t minLead sender scope now body = .held := by
  unfold judgeCue
  rw [hp]
  dsimp only
  rw [hf]
  exact if_pos ((sameOffer_iff e b scope).2 h)

theorem judgeCue_of_conflict {e : CueEntry} (hf : t.find ⟨sender, b.serial⟩ = some e)
    (h : ¬(e.fireTime = b.fireTime ∧ e.scope = scope ∧ e.actions = b.actions ∧ e.rep = b.rep)) :
    judgeCue t minLead sender scope now body = .refuse .keyConflict := by
  unfold judgeCue
  rw [hp]
  dsimp only
  rw [hf]
  exact if_neg fun hs => h ((sameOffer_iff e b scope).1 hs)

variable (hf : t.find ⟨sender, b.serial⟩ = none)
include hf

theorem judgeCue_of_lead {r : RefusalReason} (h : leadVerdict minLead b.fireTime now = some r) :
    judgeCue t minLead sender scope now body = .refuse r := by
  unfold judgeCue
  rw [hp]
  dsimp only
  rw [hf]
  dsimp only
  rw [h]

theorem judgeCue_of_full (h : leadVerdict minLead b.fireTime now = none) (hfull : 32 ≤ t.held) :
    judgeCue t minLead sender scope now body = .refuse .full := by
  unfold judgeCue
  rw [hp]
  dsimp only
  rw [hf]
  dsimp only
  rw [h]
  exact if_neg (not_lt.2 hfull)

theorem judgeCue_of_room (h : leadVerdict minLead b.fireTime now = none) (hroom : t.held < 32) :
    judgeCue t minLead sender scope now body = .new b := by
  unfold judgeCue
  rw [hp]
  dsimp only
  rw [hf]
  dsimp only
  rw [h]
  exact if_pos hroom

end

theorem leadVerdict_tooLate {minLead : Nat} {fire now : Time} (h : distance fire now < minLead ∨ 2 ^ 31 ≤ distance fire now) :
    leadVerdict minLead fire now = some .tooLate := if_pos h

theorem leadVerdict_tooFar {minLead : Nat} {fire now : Time} (h1 : minLead ≤ distance fire now) (h2 : 2 ^ 24 < distance fire now)
    (h3 : distance fire now < 2 ^ 31) : leadVerdict minLead fire now = some .tooFar := by
  have hhorizon : Config.horizon = 2 ^ 24 := rfl
  unfold leadVerdict
  rw [if_neg (by omega), hhorizon, if_pos h2]

theorem leadVerdict_passes {minLead : Nat} {fire now : Time} (h1 : minLead ≤ distance fire now) (h2 : distance fire now ≤ 2 ^ 24) :
    leadVerdict minLead fire now = none := by
  have hhorizon : Config.horizon = 2 ^ 24 := rfl
  unfold leadVerdict
  rw [if_neg (by omega), hhorizon, if_neg (by omega)]

/-- R26: a CUE body begins with its serial. -/
theorem bodySerial_of_parseCue {body : List Byte} {b : CueBody} (h : parseCue body = some b) : bodySerial body = b.serial := by
  obtain ⟨-, rfl⟩ := (parseCue_eq_some_iff body b).1 h
  rfl

/-! ### The offer -/

section
variable {s : State} {sender : Byte} {scope : Scope} (hgood : s.goodFrame 2 sender scope) (ha : addresses s.station scope = true)
include hgood ha

theorem cue_evaluated_missed (h : s.station.state = .active → s.clock.state = .unsynced) :
    EvaluatedTo (s.judgedGood sender scope) (evaluationPoint s) .none s.cues s.clock
      [.offerMissed .cue ⟨sender, bodySerial s.rxBody⟩ (missedCauseOf s.station.state) (bodyFireTime s.rxBody)] := by
  have hr := repliesWith_cue_missed (s := s.judgedGood sender scope) hgood.kind_eq ha h
  rw [hgood.offerKey_eq] at hr
  exact hgood.evaluatedTo hr

variable (hs : s.station.state = .active) (hc : s.clock.state ≠ .unsynced)
include hs hc

/-- The verdict decides what becomes of the offer. -/
theorem cue_evaluated_refused {r : RefusalReason}
    (h : judgeCue s.cues s.station.setup.minLead sender scope s.clock.lineTime s.rxBody = .refuse r) :
    EvaluatedTo (s.judgedGood sender scope) (evaluationPoint s) .veto
      { s.cues with offer := some ⟨.cue, ⟨sender, bodySerial s.rxBody⟩, .veto, .none⟩ } s.clock
      [.offerRefused .cue ⟨sender, bodySerial s.rxBody⟩ r (bodyFireTime s.rxBody) s.clock.lineTime] := by
  have hr := repliesWith_cue_refused (s := s.judgedGood sender scope) hgood.kind_eq ha hs hc (r := r)
    (by rw [hgood.sender_eq, hgood.judgedScope_eq]; exact h)
  rw [hgood.offerKey_eq] at hr
  exact hgood.evaluatedTo hr

theorem cue_evaluated_held (h : judgeCue s.cues s.station.setup.minLead sender scope s.clock.lineTime s.rxBody = .held) :
    EvaluatedTo (s.judgedGood sender scope) (evaluationPoint s) .take
      { s.cues with offer := some ⟨.cue, ⟨sender, bodySerial s.rxBody⟩, .take, .held⟩ } s.clock [] := by
  have hr := repliesWith_cue_held (s := s.judgedGood sender scope) hgood.kind_eq ha hs hc
    (by rw [hgood.sender_eq, hgood.judgedScope_eq]; exact h)
  rw [hgood.offerKey_eq] at hr
  exact hgood.evaluatedTo hr

theorem cue_evaluated_new {b : CueBody}
    (h : judgeCue s.cues s.station.setup.minLead sender scope s.clock.lineTime s.rxBody = .new b) :
    EvaluatedTo (s.judgedGood sender scope) (evaluationPoint s) .take
      { s.cues with
        provisional := some (provisionalOf sender scope s.decoder.ownFrame b),
        offer := some ⟨.cue, ⟨sender, bodySerial s.rxBody⟩, .take, .newEntry⟩ } s.clock [] := by
  have hr := repliesWith_cue_new (s := s.judgedGood sender scope) hgood.kind_eq ha hs hc (b := b)
    (by rw [hgood.sender_eq, hgood.judgedScope_eq]; exact h)
  rw [hgood.offerKey_eq, hgood.sender_eq, hgood.judgedScope_eq] at hr
  exact hgood.evaluatedTo hr

end

/-- Whatever the verdict, the clock record and the armed entries stand. -/
theorem cue_evaluated_stands {s : State} {sender : Byte} {scope : Scope} (hgood : s.goodFrame 2 sender scope)
    (ha : addresses s.station scope = true) :
    (evaluationPoint s).clock = s.clock ∧ (evaluationPoint s).cues.armed = s.cues.armed := by
  by_cases h : s.station.state = .active → s.clock.state = .unsynced
  · have he := cue_evaluated_missed hgood ha h
    exact ⟨he.clock, by rw [he.cues]⟩
  · obtain ⟨hs, hc⟩ := Classical.not_imp.1 h
    cases hj : judgeCue s.cues s.station.setup.minLead sender scope s.clock.lineTime s.rxBody with
    | refuse r =>
      have he := cue_evaluated_refused hgood ha hs hc hj
      exact ⟨he.clock, by rw [he.cues]⟩
    | held =>
      have he := cue_evaluated_held hgood ha hs hc hj
      exact ⟨he.clock, by rw [he.cues]⟩
    | new b =>
      have he := cue_evaluated_new hgood ha hs hc hj
      exact ⟨he.clock, by rw [he.cues]⟩

/-- Settles O50: the verdict of R25, case by case. -/
theorem cueOfferIsAnswered : Obligations.CueOfferIsAnswered := by
  intro s sender scope hlast hgood ha
  have htouch := touches_evaluation_good hgood
  obtain ⟨hclock, harmed⟩ := cue_evaluated_stands hgood ha
  refine ⟨_, exec_evaluationPoint_of_atLastCheckBit s hlast, hclock, htouch.points (by simp), htouch.send (by simp),
    htouch.inputs (by simp), harmed, ?_⟩
  intro key refused
  refine ⟨fun hstate => ?_, fun hs hc => ?_⟩
  · have hmissed : s.station.state = .active → s.clock.state = .unsynced := by
      rcases hstate with h | h | h
      · exact fun h' => absurd (h.symm.trans h') (by simp)
      · exact fun h' => absurd (h.symm.trans h') (by simp)
      · exact fun _ => h.2
    have he := cue_evaluated_missed hgood ha hmissed
    refine ⟨he.answer_eq, he.cues, he.seen (List.mem_singleton_self _), fun hroom hon => ?_⟩
    refine he.mem ?_ (Nat.le_refl _) hroom hon
    rcases hstate with h | h | h
    · rw [h]
      exact List.mem_singleton_self _
    · rw [h]
      exact List.mem_singleton_self _
    · rw [h.1]
      exact List.mem_singleton_self _
  · have hrefused (r : RefusalReason)
        (h : judgeCue s.cues s.station.setup.minLead sender scope s.clock.lineTime s.rxBody = .refuse r) : refused r := by
      have he := cue_evaluated_refused hgood ha hs hc h
      exact ⟨he.answer_eq, by rw [he.cues], by rw [he.cues],
        fun hroom hon => he.mem (List.mem_singleton_self _) (Nat.le_refl _) hroom hon⟩
    refine ⟨fun hform => hrefused _ (judgeCue_of_malformed hform), fun b hparse => ?_⟩
    have hserial := bodySerial_of_parseCue hparse
    refine ⟨fun e hfind => ⟨fun hsame => ?_, fun hdiffers => hrefused _ (judgeCue_of_conflict hparse hfind hdiffers)⟩,
      fun hfree => ⟨fun hlate => hrefused _ (judgeCue_of_lead hparse hfree (leadVerdict_tooLate hlate)),
        fun h1 h2 h3 => hrefused _ (judgeCue_of_lead hparse hfree (leadVerdict_tooFar h1 h2 h3)),
        fun h1 h2 hfull => hrefused _ (judgeCue_of_full hparse hfree (leadVerdict_passes h1 h2) hfull),
        fun h1 h2 hroom => ?_⟩⟩
    · have he := cue_evaluated_held hgood ha hs hc (judgeCue_of_same hparse hfind hsame)
      rw [hserial] at he
      exact ⟨he.answer_eq, he.cues⟩
    · have he := cue_evaluated_new hgood ha hs hc (judgeCue_of_room hparse hfree (leadVerdict_passes h1 h2) hroom)
      rw [hserial] at he
      exact ⟨he.answer_eq, he.cues⟩

end Sys2Proof.Machine
end

section
/-! SUPPORT. WITHDRAWs, BEACONs and MESSAGEs at the evaluation point (R38, R39, R42, R75, R82, R121, R174). -/

namespace Sys2Proof.Machine

/-! ### WITHDRAW -/

/-- R8: with keys distinct, marking a key's entry touches that entry alone. -/
theorem setMark_split {k : Key} {before after : List CueEntry} {e : CueEntry} (he : e.key = k)
    (hu : ∀ x ∈ before ++ after, x.key ≠ k) :
    setMark k (before ++ e :: after) = before ++ { e with withdrawPending := true } :: after := by
  have hkeep (es : List CueEntry) (h : ∀ x ∈ es, x.key ≠ k) : setMark k es = es :=
    (List.map_congr_left fun x hx => if_neg (h x hx)).trans (List.map_id es)
  have hbefore := hkeep before fun x hx => hu x (List.mem_append_left _ hx)
  have hafter := hkeep after fun x hx => hu x (List.mem_append_right _ hx)
  unfold setMark at *
  rw [List.map_append, List.map_cons, hbefore, hafter, if_pos he]

section
variable {s : State} {sender : Byte} {scope : Scope} (hgood : s.goodFrame 1 sender scope) (ha : addresses s.station scope = true)
include hgood ha

theorem withdraw_evaluated_other (hactive : s.station.state ≠ .active) (hsilent : s.station.state ≠ .silent) :
    EvaluatedTo (s.judgedGood sender scope) (evaluationPoint s) .none s.cues s.clock [] :=
  hgood.evaluatedTo (repliesWith_withdraw_other (s := s.judgedGood sender scope) hgood.kind_eq ha hactive hsilent)

theorem withdraw_evaluated_missedEmpty (hs : s.station.state = .silent) (h : s.rxBody = []) :
    EvaluatedTo (s.judgedGood sender scope) (evaluationPoint s) .none s.cues s.clock [] :=
  hgood.evaluatedTo (repliesWith_withdraw_missedEmpty (s := s.judgedGood sender scope) hgood.kind_eq ha hs h)

theorem withdraw_evaluated_missedHeld (hs : s.station.state = .silent) (hb : s.rxBody ≠ []) {e : CueEntry}
    (h : s.cues.findArmed ⟨sender, bodySerial s.rxBody⟩ = some e) :
    EvaluatedTo (s.judgedGood sender scope) (evaluationPoint s) .none s.cues s.clock
      [.offerMissed .withdraw ⟨sender, bodySerial s.rxBody⟩ .silent e.fireTime] := by
  rw [← hgood.offerKey_eq] at h ⊢
  exact hgood.evaluatedTo (repliesWith_withdraw_missedHeld (s := s.judgedGood sender scope) hgood.kind_eq ha hs hb h)

theorem withdraw_evaluated_missedNotHeld (hs : s.station.state = .silent) (hb : s.rxBody ≠ [])
    (h : s.cues.findArmed ⟨sender, bodySerial s.rxBody⟩ = none) :
    EvaluatedTo (s.judgedGood sender scope) (evaluationPoint s) .none s.cues s.clock [] := by
  rw [← hgood.offerKey_eq] at h
  exact hgood.evaluatedTo (repliesWith_withdraw_missedNotHeld (s := s.judgedGood sender scope) hgood.kind_eq ha hs hb h)

variable (hs : s.station.state = .active)
include hs

theorem withdraw_evaluated_badLength (h : s.rxBody.length ≠ 1) :
    EvaluatedTo (s.judgedGood sender scope) (evaluationPoint s) .veto
      { s.cues with offer := some ⟨.withdraw, ⟨sender, bodySerial s.rxBody⟩, .veto, .none⟩ } s.clock
      [.offerRefused .withdraw ⟨sender, bodySerial s.rxBody⟩ .form 0 s.clock.lineTime] := by
  rw [← hgood.offerKey_eq]
  exact hgood.evaluatedTo (repliesWith_withdraw_badLength (s := s.judgedGood sender scope) hgood.kind_eq ha hs h)

variable (hl : s.rxBody.length = 1)
include hl

theorem withdraw_evaluated_notHeld (h : s.cues.findArmed ⟨sender, bodySerial s.rxBody⟩ = none) :
    EvaluatedTo (s.judgedGood sender scope) (evaluationPoint s) .none
      { s.cues with offer := some ⟨.withdraw, ⟨sender, bodySerial s.rxBody⟩, .none, .none⟩ } s.clock [] := by
  rw [← hgood.offerKey_eq] at h ⊢
  exact hgood.evaluatedTo (repliesWith_withdraw_notHeld (s := s.judgedGood sender scope) hgood.kind_eq ha hs hl h)

theorem withdraw_evaluated_tooLate {e : CueEntry} (h : s.cues.findArmed ⟨sender, bodySerial s.rxBody⟩ = some e)
    (hw : inLeadWindow s.station.setup.minLead e.fireTime s.clock.lineTime = true) :
    EvaluatedTo (s.judgedGood sender scope) (evaluationPoint s) .veto
      { s.cues with offer := some ⟨.withdraw, ⟨sender, bodySerial s.rxBody⟩, .veto, .none⟩ } s.clock
      [.offerRefused .withdraw ⟨sender, bodySerial s.rxBody⟩ .tooLate e.fireTime s.clock.lineTime] := by
  rw [← hgood.offerKey_eq] at h ⊢
  exact hgood.evaluatedTo (repliesWith_withdraw_tooLate (s := s.judgedGood sender scope) hgood.kind_eq ha hs hl h hw)

theorem withdraw_evaluated_marked {e : CueEntry} (h : s.cues.findArmed ⟨sender, bodySerial s.rxBody⟩ = some e)
    (hw : inLeadWindow s.station.setup.minLead e.fireTime s.clock.lineTime = false) :
    EvaluatedTo (s.judgedGood sender scope) (evaluationPoint s) .take
      { s.cues with
        armed := setMark ⟨sender, bodySerial s.rxBody⟩ s.cues.armed,
        offer := some ⟨.withdraw, ⟨sender, bodySerial s.rxBody⟩, .take, .marked⟩ } s.clock [] := by
  rw [← hgood.offerKey_eq] at h ⊢
  exact hgood.evaluatedTo (repliesWith_withdraw_marked (s := s.judgedGood sender scope) hgood.kind_eq ha hs hl h hw)

end

/-- Whatever the answer, the clock record and the provisional entry stand. -/
theorem withdraw_evaluated_stands {s : State} {sender : Byte} {scope : Scope} (hgood : s.goodFrame 1 sender scope)
    (ha : addresses s.station scope = true) :
    (evaluationPoint s).clock = s.clock ∧ (evaluationPoint s).cues.provisional = s.cues.provisional := by
  by_cases hs : s.station.state = .active
  · by_cases hl : s.rxBody.length = 1
    · cases hf : s.cues.findArmed ⟨sender, bodySerial s.rxBody⟩ with
      | none =>
        have he := withdraw_evaluated_notHeld hgood ha hs hl hf
        exact ⟨he.clock, by rw [he.cues]⟩
      | some e =>
        cases hw : inLeadWindow s.station.setup.minLead e.fireTime s.clock.lineTime with
        | true =>
          have he := withdraw_evaluated_tooLate hgood ha hs hl hf hw
          exact ⟨he.clock, by rw [he.cues]⟩
        | false =>
          have he := withdraw_evaluated_marked hgood ha hs hl hf hw
          exact ⟨he.clock, by rw [he.cues]⟩
    · have he := withdraw_evaluated_badLength hgood ha hs hl
      exact ⟨he.clock, by rw [he.cues]⟩
  · by_cases hsilent : s.station.state = .silent
    · by_cases hb : s.rxBody = []
      · have he := withdraw_evaluated_missedEmpty hgood ha hsilent hb
        exact ⟨he.clock, by rw [he.cues]⟩
      · cases hf : s.cues.findArmed ⟨sender, bodySerial s.rxBody⟩ with
        | none =>
          have he := withdraw_evaluated_missedNotHeld hgood ha hsilent hb hf
          exact ⟨he.clock, by rw [he.cues]⟩
        | some e =>
          have he := withdraw_evaluated_missedHeld hgood ha hsilent hb hf
          exact ⟨he.clock, by rw [he.cues]⟩
    · have he := withdraw_evaluated_other hgood ha hs hsilent
      exact ⟨he.clock, by rw [he.cues]⟩

/-- No answer but the report's PEER notice. -/
theorem EvaluatedTo.quiet {j t : State} {a : Answer} {cues : CueTable} {clock : Clock} (h : EvaluatedTo j t a cues clock [])
    {c : NoticeClass} (hc : c ≠ .peer) : ∀ n ∈ t.port.notices, n.cls = c → n ∈ j.port.notices := by
  intro n hn hcls
  rcases h.mem_cases hn with h | h | h
  · exact h
  · exact absurd (hcls.symm.trans (reportNotices_cls h)) hc
  · cases h

/-! ### BEACON -/

section
variable {s : State} {sender : Byte} {scope : Scope} (hgood : s.goodFrame 0 sender scope)
include hgood

theorem beacon_evaluated_malformed (h : parseBeacon s.rxBody = none) :
    EvaluatedTo (s.judgedGood sender scope) (evaluationPoint s) .none s.cues s.clock
      [.lineError .form none .answering s.line.position s.line.role (some 0) (some sender) s.clock.lineTime] := by
  rw [← hgood.lineErrorNotice_eq]
  exact hgood.evaluatedTo (repliesWith_beacon_malformed (s := s.judgedGood sender scope) hgood.kind_eq h)

variable {time : Time} {code : Byte} {st : ClockState} (h : parseBeacon s.rxBody = some (time, code, st))
include h

theorem beacon_evaluated_otherPeriod (hcode : code ≠ s.station.setup.periodCode) :
    EvaluatedTo (s.judgedGood sender scope) (evaluationPoint s) .none s.cues s.clock
      [.configMismatch sender code s.station.setup.periodCode s.clock.lineTime] := by
  have hr := repliesWith_beacon_otherPeriod (s := s.judgedGood sender scope) hgood.kind_eq h hcode
  rw [hgood.sender_eq] at hr
  exact hgood.evaluatedTo hr

theorem beacon_evaluated_own (hcode : code = s.station.setup.periodCode)
    (hown : s.decoder.ownFrame = true ∨ sender = s.station.id) :
    EvaluatedTo (s.judgedGood sender scope) (evaluationPoint s) .take s.cues s.clock [] := by
  refine hgood.evaluatedTo (repliesWith_beacon_own (s := s.judgedGood sender scope) hgood.kind_eq h hcode ?_)
  by_cases ho : s.decoder.ownFrame = true
  · exact .inl ho
  · rw [Bool.not_eq_true] at ho
    refine .inr ?_
    rw [judgedGood_foreignOwnId, ho, decide_eq_true (hown.resolve_left (by rw [ho]; simp))]
    rfl

theorem beacon_evaluated_other (hcode : code = s.station.setup.periodCode) (hown : s.decoder.ownFrame = false)
    (hid : sender ≠ s.station.id) :
    EvaluatedTo (s.judgedGood sender scope) (evaluationPoint s) .take s.cues
      { s.clock with beacon := some ⟨sender, time, st, s.clock.markTime⟩ } [] := by
  have hnot : ¬((s.judgedGood sender scope).decoder.ownFrame = true ∨ (s.judgedGood sender scope).decoder.foreignOwnId = true) := by
    rw [judgedGood_foreignOwnId, decide_eq_false hid]
    change ¬(s.decoder.ownFrame = true ∨ _)
    rw [hown]
    simp
  have hr := repliesWith_beacon_other (s := s.judgedGood sender scope) hgood.kind_eq h hcode hnot
  rw [hgood.sender_eq] at hr
  exact hgood.evaluatedTo hr

end

/-- A BEACON reaches no cue table. -/
theorem beacon_evaluated_stands {s : State} {sender : Byte} {scope : Scope} (hgood : s.goodFrame 0 sender scope) :
    (evaluationPoint s).cues = s.cues := by
  cases h : parseBeacon s.rxBody with
  | none => exact (beacon_evaluated_malformed hgood h).cues
  | some x =>
    obtain ⟨time, code, st⟩ := x
    by_cases hcode : code = s.station.setup.periodCode
    · by_cases hown : s.decoder.ownFrame = true ∨ sender = s.station.id
      · exact (beacon_evaluated_own hgood h hcode hown).cues
      · obtain ⟨ho, hid⟩ := not_or.1 hown
        exact (beacon_evaluated_other hgood h hcode (by simpa using ho) hid).cues
    · exact (beacon_evaluated_otherPeriod hgood h hcode).cues

end Sys2Proof.Machine
end

section
/-! SUPPORT. MESSAGEs at the evaluation point (R174) beside the report of their sender (R165), and the obligation on the other owners'
answers. -/

namespace Sys2Proof.Machine

/-! ### The report beside a MESSAGE -/

/-- R165, R172: the report of a frame queues a notice. -/
def State.reportsPeer (s : State) (sender : Byte) : Bool :=
  !s.decoder.ownFrame && decide (sender ≠ s.station.id) && decide ((s.peer sender).presence ≠ .present) && s.station.enables .peer

/-- R165: the notice of a report. -/
def State.peerHeard (s : State) (sender : Byte) : Notice :=
  .peer sender (s.peer sender).presence .present s.clock.lineTime (min 65535 ((s.peer sender).framesHeard + 1)) s.clock.lineTime

theorem tellsPeer_judgedGood (s : State) (sender : Byte) (scope : Scope) :
    (s.judgedGood sender scope).decoder.tellsPeer = (!s.decoder.ownFrame && decide (sender ≠ s.station.id)) := by
  change (!s.decoder.ownFrame && !(decide (sender = s.station.id) && !(s.decoder.ownFrame && _))) = _
  cases s.decoder.ownFrame with
  | true => rfl
  | false => rw [Bool.false_and, Bool.not_false, Bool.and_true, decide_not]

section
variable {s : State} {kind : BitVec 3} {sender : Byte} {scope : Scope} (h : s.goodFrame kind sender scope)
include h

theorem State.goodFrame.reportNotices_eq : (s.judgedGood sender scope).reportNotices =
    if s.decoder.ownFrame = false ∧ sender ≠ s.station.id ∧ (s.peer sender).presence ≠ .present then [s.peerHeard sender]
    else [] := by
  have hpeer : (s.judgedGood sender scope).peer sender = s.peer sender := rfl
  have htells : ((s.judgedGood sender scope).decoder.tellsPeer = true ∧ (s.peer sender).presence ≠ .present) ↔
      s.decoder.ownFrame = false ∧ sender ≠ s.station.id ∧ (s.peer sender).presence ≠ .present := by
    rw [tellsPeer_judgedGood]
    simp [and_assoc]
  unfold State.reportNotices State.heardRecord
  rw [h.sender_eq, hpeer]
  by_cases hc : s.decoder.ownFrame = false ∧ sender ≠ s.station.id ∧ (s.peer sender).presence ≠ .present
  · rw [if_pos hc, if_pos (htells.2 hc)]
    rfl
  · rw [if_neg hc, if_neg fun h => hc (htells.1 h)]

/-- R172: a report that queues nothing leaves the notices and the dropped count. -/
theorem State.goodFrame.pushAll_of_silent (hr : s.reportsPeer sender = false) (p : Port) :
    (p.pushAll s.station (s.judgedGood sender scope).reportNotices).notices = p.notices ∧
      (p.pushAll s.station (s.judgedGood sender scope).reportNotices).dropped = p.dropped := by
  rw [h.reportNotices_eq]
  split
  · next hc =>
    obtain ⟨hown, hid, hp⟩ := hc
    have hoff : s.station.enables .peer = false := by simpa [State.reportsPeer, hown, hid, hp] using hr
    change (p.push (s.station.enables .peer) _).notices = _ ∧ (p.push (s.station.enables .peer) _).dropped = _
    rw [hoff]
    exact ⟨rfl, rfl⟩
  · exact ⟨rfl, rfl⟩

theorem State.goodFrame.pushAll_of_reporting (hr : s.reportsPeer sender = true) (p : Port) :
    p.pushAll s.station (s.judgedGood sender scope).reportNotices = p.push true (s.peerHeard sender) := by
  simp only [State.reportsPeer, Bool.and_eq_true, Bool.not_eq_true', decide_eq_true_eq] at hr
  obtain ⟨⟨⟨hown, hid⟩, hp⟩, hon⟩ := hr
  rw [h.reportNotices_eq, if_pos ⟨hown, hid, hp⟩]
  change p.push (s.station.enables .peer) _ = _
  rw [hon]

end

/-! ### The reservation -/

theorem Port.hasFree_iff (p : Port) : p.hasFree = true ↔ p.used < 16 := decide_eq_true_iff

theorem Port.used_congr {p q : Port} (hn : p.notices = q.notices) (hr : p.reservation = q.reservation) : p.used = q.used := by
  rw [Port.used, hn, hr, Port.used]

section
variable {p : Port} (r : Reservation)

theorem Port.reserving_of_free (h : p.used < 16) : p.reserving r = { p with reservation := some r } ∧ p.messageAnswer = .take :=
  ⟨if_pos (p.hasFree_iff.2 h), if_pos (p.hasFree_iff.2 h)⟩

theorem Port.reserving_of_full (h : 16 ≤ p.used) :
    p.reserving r = (p.mark NoticeClass.message.index).drop ∧ p.messageAnswer = .veto :=
  ⟨if_neg fun hf => absurd (p.hasFree_iff.1 hf) (not_lt.2 h), if_neg fun hf => absurd (p.hasFree_iff.1 hf) (not_lt.2 h)⟩

/-- R174: what a refused MESSAGE leaves of the host port. -/
theorem Port.reserving_full_fields (h : 16 ≤ p.used) :
    (p.reserving r).notices = p.notices ∧ (p.reserving r).dropped = min 255 (p.dropped + 1) ∧
      (p.reserving r).reservation = p.reservation ∧ (p.reserving r).seen.getLsbD 6 = true := by
  rw [(Port.reserving_of_full r h).1]
  refine ⟨rfl, rfl, rfl, ?_⟩
  change (p.seen ||| (1#16 <<< 6)).getLsbD 6 = true
  rw [BitVec.getLsbD_or, BitVec.getLsbD_shiftLeft]
  simp

/-- R171: a reservation takes a record. -/
theorem Port.used_reserved (h : p.reservation = none) : ({ p with reservation := some r } : Port).used = p.used + 1 := by
  unfold Port.used
  rw [h]
  rfl

end

/-- What becomes of an addressed MESSAGE with a body at an ACTIVE station: the answer and the port, with the report taken first or last. -/
theorem message_evaluated {s : State} {sender : Byte} {scope : Scope} (hgood : s.goodFrame 3 sender scope)
    (ha : addresses s.station scope = true) (hs : s.station.state = .active) (hb : s.rxBody ≠ []) :
    ((evaluationPoint s).decoder.answer =
          some (s.port.pushAll s.station (s.judgedGood sender scope).reportNotices).messageAnswer ∧
        (evaluationPoint s).port =
          (s.port.pushAll s.station (s.judgedGood sender scope).reportNotices).reserving ⟨sender, scope⟩) ∨
      ((evaluationPoint s).decoder.answer = some s.port.messageAnswer ∧
        (evaluationPoint s).port =
          (s.port.reserving ⟨sender, scope⟩).pushAll s.station (s.judgedGood sender scope).reportNotices) := by
  have hr := replies_message_body (s := s.judgedGood sender scope) hgood.kind_eq (by decide) (by decide) (by decide) ha hs hb
  rw [hgood.sender_eq, hgood.judgedScope_eq] at hr
  obtain ⟨n, p, x, hcase, heq⟩ := hr.evaluated
  rw [hgood.evaluationPoint_judged, heq]
  rcases hcase with ⟨rfl, rfl⟩ | ⟨rfl, rfl⟩
  · exact .inl ⟨rfl, rfl⟩
  · exact .inr ⟨rfl, rfl⟩

/-- A MESSAGE that its owner answers NONE. -/
theorem message_evaluated_inactive {s : State} {sender : Byte} {scope : Scope} (hgood : s.goodFrame 3 sender scope)
    (ha : addresses s.station scope = true) (hs : s.station.state ≠ .active) :
    EvaluatedTo (s.judgedGood sender scope) (evaluationPoint s) .none s.cues s.clock [] :=
  hgood.evaluatedTo (repliesWith_message_inactive (s := s.judgedGood sender scope) hgood.kind_eq (by decide) (by decide) (by decide)
    ha hs)

theorem message_evaluated_empty {s : State} {sender : Byte} {scope : Scope} (hgood : s.goodFrame 3 sender scope)
    (ha : addresses s.station scope = true) (hs : s.station.state = .active) (hb : s.rxBody = []) :
    EvaluatedTo (s.judgedGood sender scope) (evaluationPoint s) .none s.cues s.clock
      [.lineError .form none .answering s.line.position s.line.role (some 3) (some sender) s.clock.lineTime] := by
  rw [← hgood.lineErrorNotice_eq]
  exact hgood.evaluatedTo (repliesWith_message_empty (s := s.judgedGood sender scope) hgood.kind_eq (by decide) (by decide) (by decide)
    ha hs hb)

theorem message_evaluated_stands {s : State} {sender : Byte} {scope : Scope} (hgood : s.goodFrame 3 sender scope)
    (ha : addresses s.station scope = true) : (evaluationPoint s).cues = s.cues ∧ (evaluationPoint s).clock = s.clock := by
  by_cases hs : s.station.state = .active
  · by_cases hb : s.rxBody = []
    · have he := message_evaluated_empty hgood ha hs hb
      exact ⟨he.cues, he.clock⟩
    · have hr := replies_message_body (s := s.judgedGood sender scope) hgood.kind_eq (by decide) (by decide) (by decide) ha hs hb
      obtain ⟨n, p, x, -, heq⟩ := hr.evaluated
      rw [hgood.evaluationPoint_judged, heq]
      exact ⟨rfl, rfl⟩
  · have he := message_evaluated_inactive hgood ha hs
    exact ⟨he.cues, he.clock⟩

theorem EvaluatedTo.reservation {j t : State} {a : Answer} {cues : CueTable} {clock : Clock} {ns : List Notice}
    (h : EvaluatedTo j t a cues clock ns) : t.port.reservation = j.port.reservation := by
  obtain ⟨l, -, hport⟩ := h.port
  rw [hport, Port.pushAll_reservation]

/-- R174: with a record free after any report, the MESSAGE is taken. -/
theorem message_taken {s : State} {sender : Byte} {scope : Scope} (hgood : s.goodFrame 3 sender scope)
    (ha : addresses s.station scope = true) (hs : s.station.state = .active) (hb : s.rxBody ≠ [])
    (hfree : (s.port.pushAll s.station (s.judgedGood sender scope).reportNotices).used < 16) (hroom : s.port.used < 16) :
    (evaluationPoint s).decoder.answer = some .take ∧ (evaluationPoint s).port.reservation = some ⟨sender, scope⟩ := by
  rcases message_evaluated hgood ha hs hb with ⟨hx, hp⟩ | ⟨hx, hp⟩
  · obtain ⟨hr, hm⟩ := Port.reserving_of_free ⟨sender, scope⟩ hfree
    rw [hx, hp, hr, hm]
    exact ⟨rfl, rfl⟩
  · obtain ⟨hr, hm⟩ := Port.reserving_of_free ⟨sender, scope⟩ hroom
    rw [hx, hp, Port.pushAll_reservation, hr, hm]
    exact ⟨rfl, rfl⟩

/-- R172: what a report at a full queue leaves. -/
theorem push_full_fields {p : Port} (n : Notice) (h : 16 ≤ p.used) :
    (p.push true n).notices = p.notices ∧ (p.push true n).dropped = min 255 (p.dropped + 1) ∧
      (p.push true n).used = p.used := by
  obtain ⟨hn, hd⟩ := p.push_of_full n h
  refine ⟨hn, ?_, Port.used_congr hn (p.push_reservation true n)⟩
  rw [hd]
  split <;> omega

/-- Settles O51: each kind by its cases. -/
theorem otherOffersAreAnswered : Obligations.OtherOffersAreAnswered := by
  refine ⟨?withdraw, ?beacon, ?message⟩
  case withdraw =>
    intro s sender scope hlast hgood ha now named
    have htouch := touches_evaluation_good hgood
    obtain ⟨hclock, hprovisional⟩ := withdraw_evaluated_stands hgood ha
    refine ⟨_, exec_evaluationPoint_of_atLastCheckBit s hlast, hclock, htouch.points (by simp), htouch.send (by simp),
      htouch.inputs (by simp), hprovisional, ?_⟩
    intro refused
    refine ⟨fun hs => ⟨fun hl => ?_, fun serial hbody => ?_⟩, fun hs hb => ?_, fun hs => ?_⟩
    · have he := withdraw_evaluated_badLength hgood ha hs hl
      exact ⟨he.answer_eq, by rw [he.cues], by rw [he.cues], he.mem (List.mem_singleton_self _) (Nat.le_refl _)⟩
    · have hl : s.rxBody.length = 1 := by rw [hbody]; rfl
      have hserial : bodySerial s.rxBody = serial := by rw [hbody]; rfl
      refine ⟨fun hnone => ?_, fun before after e hq hkey hu => ?_⟩
      · have he := withdraw_evaluated_notHeld hgood ha hs hl (by rw [hserial]; exact (s.cues.findArmed_eq_none _).2 hnone)
        rw [hserial] at he
        exact ⟨he.answer_eq, by rw [he.cues], by rw [he.cues]⟩
      · have hfind := s.cues.findArmed_of_split ⟨sender, serial⟩ before after e hq hkey fun x hx =>
          hu x (List.mem_append_left _ hx)
        refine ⟨fun h1 h2 => ?_, fun hd => ?_⟩
        · have hw : inLeadWindow s.station.setup.minLead e.fireTime now = false := by
            rw [← Bool.not_eq_true, inLeadWindow_iff]
            omega
          have he := withdraw_evaluated_marked hgood ha hs hl (by rw [hserial]; exact hfind) hw
          rw [hserial, hq, setMark_split hkey hu] at he
          exact ⟨he.answer_eq, by rw [he.cues], by rw [he.cues]⟩
        · have he := withdraw_evaluated_tooLate hgood ha hs hl (by rw [hserial]; exact hfind) ((inLeadWindow_iff ..).2 hd)
          rw [hserial] at he
          exact ⟨he.answer_eq, by rw [he.cues], by rw [he.cues], he.mem (List.mem_singleton_self _) (Nat.le_refl _)⟩
    · cases hf : s.cues.findArmed named with
      | none =>
        have he := withdraw_evaluated_missedNotHeld hgood ha hs hb hf
        have hnone := (s.cues.findArmed_eq_none named).1 hf
        exact ⟨he.answer_eq, he.cues, fun _ => he.quiet (by simp), fun before after e hq hkey _ =>
          absurd hkey (hnone e (by rw [hq]; exact List.mem_append_right _ List.mem_cons_self))⟩
      | some x =>
        have he := withdraw_evaluated_missedHeld hgood ha hs hb hf
        refine ⟨he.answer_eq, he.cues, fun hnone => ?_, fun before after e hq hkey hu => ?_⟩
        · rw [(s.cues.findArmed_eq_none named).2 hnone] at hf
          cases hf
        · rw [s.cues.findArmed_of_split named before after e hq hkey hu] at hf
          obtain rfl := Option.some.inj hf
          exact he.mem (List.mem_singleton_self _) (Nat.le_refl _)
    · have he := withdraw_evaluated_other hgood ha (by rw [hs]; simp) (by rw [hs]; simp)
      exact ⟨he.answer_eq, he.cues, he.quiet (by simp)⟩
  case beacon =>
    intro s sender scope hlast hgood now
    have htouch := touches_evaluation_good hgood
    refine ⟨_, exec_evaluationPoint_of_atLastCheckBit s hlast, beacon_evaluated_stands hgood, htouch.points (by simp),
      htouch.send (by simp), htouch.inputs (by simp), fun time code st hbody => ⟨fun hcode => ?_, fun hcode => ?_⟩, fun hbody => ?_⟩
    · by_cases hown : s.decoder.ownFrame = true ∨ sender = s.station.id
      · have he := beacon_evaluated_own hgood hbody hcode hown
        refine ⟨he.answer_eq, fun ho hid => ?_, fun _ => he.clock⟩
        rw [ho] at hown
        exact absurd (hown.resolve_left (by simp)) hid
      · obtain ⟨ho, hid⟩ := not_or.1 hown
        have he := beacon_evaluated_other hgood hbody hcode (by simpa using ho) hid
        exact ⟨he.answer_eq, fun _ _ => he.clock, fun h => absurd h hown⟩
    · have he := beacon_evaluated_otherPeriod hgood hbody hcode
      exact ⟨he.answer_eq, he.clock, he.seen (List.mem_singleton_self _), he.mem (List.mem_singleton_self _) (Nat.le_refl _)⟩
    · have he := beacon_evaluated_malformed hgood hbody
      exact ⟨he.answer_eq, he.clock, he.seen (List.mem_singleton_self _), he.mem (List.mem_singleton_self _) (Nat.le_refl _)⟩
  case message =>
    intro s sender scope hlast hgood ha now peer heard reports
    have htouch := touches_evaluation_good hgood
    obtain ⟨hcues, hclock⟩ := message_evaluated_stands hgood ha
    refine ⟨_, exec_evaluationPoint_of_atLastCheckBit s hlast, hcues, htouch.points (by simp), htouch.send (by simp),
      htouch.inputs (by simp), hclock, ?_⟩
    intro taken vetoed
    refine ⟨fun hs => ?_, fun hs => ⟨fun hb => ?_, fun hb => ?_⟩⟩
    · have he := message_evaluated_inactive hgood ha hs
      exact ⟨he.answer_eq, he.reservation⟩
    · have he := message_evaluated_empty hgood ha hs hb
      exact ⟨he.answer_eq, he.reservation, he.mem (List.mem_singleton_self _) (Nat.le_refl _)⟩
    have hcases := message_evaluated hgood ha hs hb
    have hlen := length_reportNotices_le (s.judgedGood sender scope)
    have hreporting (hr : reports = true) (p : Port) :
        p.pushAll s.station (s.judgedGood sender scope).reportNotices = p.push true heard := hgood.pushAll_of_reporting hr p
    have hsilent (hr : reports = false) (p : Port) :
        (p.pushAll s.station (s.judgedGood sender scope).reportNotices).notices = p.notices ∧
          (p.pushAll s.station (s.judgedGood sender scope).reportNotices).dropped = p.dropped := hgood.pushAll_of_silent hr p
    refine ⟨fun hroom => ?_, fun h15 hr => ?_, fun h15 hr hnone => ?_, fun h16 => ?_⟩
    · have hused := s.port.used_pushAll_le s.station (s.judgedGood sender scope).reportNotices
      exact message_taken hgood ha hs hb (by omega) (by omega)
    · have hused : (s.port.pushAll s.station (s.judgedGood sender scope).reportNotices).used = s.port.used :=
        Port.used_congr (hsilent hr _).1 (Port.pushAll_reservation _ _ _)
      refine ⟨message_taken hgood ha hs hb (by omega) (by omega), ?_⟩
      rcases hcases with ⟨-, hp⟩ | ⟨-, hp⟩
      · rw [hp, (Port.reserving_of_free _ (by omega)).1]
        exact (hsilent hr _).1
      · rw [hp, (hsilent hr _).1, (Port.reserving_of_free _ (by omega)).1]
    · rw [hreporting hr, hreporting hr] at hcases
      rcases hcases with ⟨hx, hp⟩ | ⟨hx, hp⟩
      · obtain ⟨hn, hd⟩ := s.port.push_of_free heard (by omega)
        obtain ⟨-, hu⟩ := s.port.push_used true heard (by omega)
        have hfull : 16 ≤ (s.port.push true heard).used := by
          rw [hu]
          simp only [if_true]
          omega
        obtain ⟨hfn, hfd, hfr, hfs⟩ := Port.reserving_full_fields ⟨sender, scope⟩ hfull
        rw [hp]
        refine ⟨by rw [hfd, hd], .inr ⟨⟨?_, by rw [hp, hfr, Port.push_reservation], by rw [hp]; exact hfs⟩, by rw [hfn, hn]⟩⟩
        rw [hx, (Port.reserving_of_full ⟨sender, scope⟩ hfull).2]
      · obtain ⟨hr', hm⟩ := Port.reserving_of_free (p := s.port) ⟨sender, scope⟩ (by omega)
        have hfull : 16 ≤ (s.port.reserving ⟨sender, scope⟩).used := by
          rw [hr', Port.used_reserved _ hnone]
          omega
        obtain ⟨hn, hd, -⟩ := push_full_fields heard hfull
        rw [hp]
        refine ⟨by rw [hd, hr'], .inl ⟨⟨by rw [hx, hm], by rw [hp, Port.push_reservation, hr']⟩, by rw [hn, hr']⟩⟩
    · obtain ⟨hfn, hfd, hfr, hfs⟩ := Port.reserving_full_fields ⟨sender, scope⟩ h16
      have hfull' : 16 ≤ (s.port.reserving ⟨sender, scope⟩).used := by rwa [Port.used_congr hfn hfr]
      cases hr : reports with
      | true =>
        obtain ⟨hn, hd, hu⟩ := push_full_fields heard h16
        obtain ⟨hgn, hgd, hgr, hgs⟩ := Port.reserving_full_fields ⟨sender, scope⟩ (h16.trans_eq hu.symm)
        obtain ⟨hn', hd', -⟩ := push_full_fields heard hfull'
        rw [hreporting hr, hreporting hr] at hcases
        rcases hcases with ⟨hx, hp⟩ | ⟨hx, hp⟩
        · refine ⟨⟨?_, by rw [hp, hgr, Port.push_reservation], by rw [hp]; exact hgs⟩, by rw [hp, hgn, hn], ?_⟩
          · rw [hx, (Port.reserving_of_full ⟨sender, scope⟩ (h16.trans_eq hu.symm)).2]
          · rw [hp, hgd, hd, if_pos rfl]
            omega
        · refine ⟨⟨?_, by rw [hp, Port.push_reservation, hfr], ?_⟩, by rw [hp, hn', hfn], ?_⟩
          · rw [hx, (Port.reserving_of_full ⟨sender, scope⟩ h16).2]
          · rw [hp, ← hreporting hr]
            exact Port.seen_pushAll_of_seen hfs
          · rw [hp, hd', hfd, if_pos rfl]
            omega
      | false =>
        obtain ⟨hn, hd⟩ := hsilent hr s.port
        have hu : (s.port.pushAll s.station (s.judgedGood sender scope).reportNotices).used = s.port.used :=
          Port.used_congr hn (Port.pushAll_reservation _ _ _)
        obtain ⟨hgn, hgd, hgr, hgs⟩ := Port.reserving_full_fields ⟨sender, scope⟩ (h16.trans_eq hu.symm)
        obtain ⟨hn', hd'⟩ := hsilent hr (s.port.reserving ⟨sender, scope⟩)
        rcases hcases with ⟨hx, hp⟩ | ⟨hx, hp⟩
        · refine ⟨⟨?_, by rw [hp, hgr, Port.pushAll_reservation], by rw [hp]; exact hgs⟩, by rw [hp, hgn, hn], ?_⟩
          · rw [hx, (Port.reserving_of_full ⟨sender, scope⟩ (h16.trans_eq hu.symm)).2]
          · rw [hp, hgd, hd]
            rfl
        · refine ⟨⟨?_, by rw [hp, Port.pushAll_reservation, hfr], by rw [hp]; exact Port.seen_pushAll_of_seen hfs⟩,
            by rw [hp, hn', hfn], ?_⟩
          · rw [hx, (Port.reserving_of_full ⟨sender, scope⟩ h16).2]
          · rw [hp, hd', hfd]
            rfl

end Sys2Proof.Machine
end

section
/-! SUPPORT. The events of the line at a finished instant: idle gap and recovery (R94, R103), start conditions (R93), the falls of PACE,
half-periods and answers (R91, R100). -/

namespace Sys2Proof.Machine

/-! ### Each row at a finished instant is its event -/

section
variable {s : State} (h : s.settled = true)
include h

theorem exec_lineIdle : exec .lineIdle s = .next (onLineIdle s) := by
  change execLineIdle s = _; rw [execLineIdle, settle_of_settled s h]

theorem exec_idleCountReset (w : Wire) : exec (.idleCountReset w) s = .next (onIdleCountReset w s) := by
  change execIdleCountReset w s = _; rw [execIdleCountReset, settle_of_settled s h]

theorem exec_paceFallInIdle : exec .paceFallInIdle s = .next (onPaceFallInIdle s) := by
  change execPaceFallInIdle s = _; rw [execPaceFallInIdle, settle_of_settled s h]

theorem exec_recoverEnd : exec .recoverEnd s = .next (onRecoverEnd s) := by
  change execRecoverEnd s = _; rw [execRecoverEnd, settle_of_settled s h]

theorem exec_startCondition (own : Bool) : exec (.startCondition own) s = .next (onStartCondition own s) := by
  change execStartCondition own s = _; rw [execStartCondition, settle_of_settled s h]

theorem exec_bitSample (v : Level) : exec (.bitSample v) s = .next (onBitSample v s) := by
  change execBitSample v s = _; rw [execBitSample, settle_of_settled s h]

theorem exec_paceFall : exec .paceFall s = .next (onPaceFall s) := by
  change execPaceFall s = _; rw [execPaceFall, settle_of_settled s h]

theorem exec_halfPeriodEnd : exec .halfPeriodEnd s = .next (s.withLine s.line.halfPeriodOver) := by
  change execHalfPeriodEnd s = _; rw [execHalfPeriodEnd, settle_of_settled s h]

theorem exec_answerReady : exec .answerReady s = .next (onAnswerReady s) := by
  change execAnswerReady s = _; rw [execAnswerReady, settle_of_settled s h]

theorem exec_endCondition : exec .endCondition s = .next (onEndCondition s) := by
  change execEndCondition s = _; rw [execEndCondition, settle_of_settled s h]

theorem exec_stuckLow (w : Wire) (risen : Bool) : exec (.stuckLow ⟨w, risen⟩) s = .next (onStuckLow w risen s) := by
  change execStuckLow ⟨w, risen⟩ s = _; rw [execStuckLow, settle_of_settled s h]

theorem exec_stall : exec .stall s = .next (onStall s) := by
  change execStall s = _; rw [execStall, settle_of_settled s h]

theorem exec_framing : exec .framing s = .next (onFraming s) := by
  change execFraming s = _; rw [execFraming, settle_of_settled s h]
end

/-! ### Idle and recovery -/

/-- Settles O59: each event read at a finished instant, in the line state it names. -/
theorem idleGapAndRecovery : Obligations.IdleGapAndRecovery := by
  intro s h
  refine ⟨fun hs hheld => ?_, fun hs => ⟨?_, ?_⟩, fun hs => ?_, fun hs => ?_⟩
  · rw [exec_lineIdle h, onLineIdle, if_pos ⟨hs, hheld⟩]; rfl
  · rw [exec_idleCountReset h, onIdleCountReset, if_pos hs]; rfl
  · rw [exec_idleCountReset h, onIdleCountReset, if_pos hs]; rfl
  · rw [exec_paceFallInIdle h, onPaceFallInIdle, if_pos hs]; rfl
  · rw [exec_recoverEnd h, onRecoverEnd, if_pos hs]; rfl

/-! ### The start of a frame -/

theorem onStartCondition_idle {s : State} (h : s.line.state = .idle) (own : Bool) :
    onStartCondition own s = if own ∧ s.send.offered = .none then s else beginFrame own s := by
  rw [onStartCondition, h]

theorem started_beacon {u : SendUnit} (h : u.offered = .beacon) :
    u.started true = { u with slot := .inFlight, offered := .none } := by
  rw [SendUnit.started, if_pos rfl, h]

theorem started_head {u : SendUnit} {e : SendEntry} {rest : List SendEntry} (h : u.offered = .head) (hq : u.queue = e :: rest) :
    u.started true = { u with queue := { e with inFlight := true } :: rest, offered := .none } := by
  rw [SendUnit.started, if_pos rfl, h, hq]

theorem offeredBits_beacon {s : State} (h : s.send.offered = .beacon) :
    offeredBits s = frameBits 0 s.station.id ⟨.group, 0⟩ (beaconBody s) := by
  rw [offeredBits, h]

theorem offeredBits_head {s : State} {e : SendEntry} {rest : List SendEntry} (h : s.send.offered = .head)
    (hq : s.send.queue = e :: rest) : offeredBits s = frameBits e.kind.code s.station.id e.scope e.body := by
  rw [offeredBits, h, hq]

/-- Settles O52: in IDLE either start condition begins a frame, and what was offered decides the frame sent. -/
theorem startConditionBeginsAFrame : Obligations.StartConditionBeginsAFrame := by
  intro s h hidle
  refine ⟨⟨beginFrame false s, ?_, rfl, rfl, rfl, rfl, rfl, rfl, rfl, rfl, ?_, rfl, rfl, rfl, rfl, rfl, rfl, rfl, rfl, rfl⟩,
    fun hoffer => ⟨beginFrame true s, ?_, rfl, rfl, rfl, rfl, rfl, rfl, rfl, rfl, rfl, rfl, rfl, rfl, rfl, rfl, rfl, rfl, fun hb => ⟨?_, ?_⟩,
      fun e rest hh hq => ⟨?_, ?_⟩⟩⟩
  · rw [exec_startCondition h, onStartCondition_idle hidle, if_neg (fun hc => Bool.false_ne_true hc.1)]
  · exact beq_eq_decide ..
  · rw [exec_startCondition h, onStartCondition_idle hidle, if_neg (fun hc => hoffer hc.2)]
  · exact started_beacon hb
  · exact offeredBits_beacon hb
  · exact started_head hh hq
  · exact offeredBits_head hh hq

/-! ### The falls of PACE -/

section
variable {l : Line}

/-- R105: what a fall of PACE shows on the wire, with the stall time restarted. -/
def Line.fallen (l : Line) : Line := { l.seePace .low with stallTime := 0 }

/-- R91: a pacer pulls PACE for its low half-period. -/
def Line.pacing (l : Line) : Line := { l.fallen with drivesPace := true, halfPeriod := .low }

theorem bitBegun_of_sending (h : l.state = .sending) :
    l.bitBegun = { l.pacing with drivesData := l.sendsDominant (l.position.getD 0) } := if_pos h

theorem bitBegun_of_driver (ha : l.state = .answering) (hd : l.driving = true) : l.bitBegun =
    if l.position.getD 0 + 3 = l.frameLength.getD 0 then
      { l.pacing with drivesData := l.answered && l.ownAnswer == .take, stretch := .holding }
    else if l.position.getD 0 + 2 = l.frameLength.getD 0 then { l.pacing with drivesData := l.ownAnswer == .veto }
    else if l.position.getD 0 + 1 = l.frameLength.getD 0 then { l.pacing with drivesData := l.role == .sender }
    else l.pacing :=
  (if_neg (fun hs : l.state = .sending => by rw [ha] at hs; cases hs)).trans (if_pos ⟨ha, hd⟩)

theorem bitBegun_of_hearer (ha : l.state = .answering) (hd : l.driving = false) : l.bitBegun = l.fallen :=
  (if_neg (fun hs : l.state = .sending => by rw [ha] at hs; cases hs)).trans
    (if_neg (fun hc : l.state = .answering ∧ l.driving = true => by rw [hd] at hc; cases hc.2))

@[simp] theorem bitBegun_position : l.bitBegun.position = l.position := by
  obtain ⟨pace, data, half, stretch, heq⟩ := l.bitBegun_eq
  rw [heq]; rfl

end

theorem onPaceFall_sending {s : State} (h : s.line.state = .sending) : onPaceFall s = s.withLine s.line.bitBegun := by
  rw [onPaceFall, h]

theorem onPaceFall_answering {s : State} (h : s.line.state = .answering) (hp : s.line.position ≠ s.line.frameLength) :
    onPaceFall s = s.withLine s.line.bitBegun := by
  rw [onPaceFall, h]; exact if_neg hp

theorem sameBesidesLine_withLine (s : State) (l : Line) : sameBesidesLine s (s.withLine l) :=
  ⟨rfl, rfl, rfl, rfl, rfl, rfl, rfl, rfl, rfl, rfl, rfl⟩

/-! ### The half-periods and the answer -/

section
variable {l : Line}

theorem halfPeriodOver_held (hh : l.halfPeriod = .low) (hs : l.stretch = .holding) (ha : l.answered = false) :
    l.halfPeriodOver = { l with halfPeriod := .none } := by
  rw [Line.halfPeriodOver, hh]; exact if_pos ⟨hs, ha⟩

theorem halfPeriodOver_low (hh : l.halfPeriod = .low) (hs : l.stretch ≠ .holding ∨ l.answered = true) :
    l.halfPeriodOver = { l with halfPeriod := .none, drivesPace := false, stretch := l.stretch.letGo } := by
  rw [Line.halfPeriodOver, hh]
  refine if_neg (fun hc => hs.elim (fun h => h hc.1) (fun h => ?_))
  rw [hc.2] at h; cases h

theorem halfPeriodOver_high (hh : l.halfPeriod = .high) (hn : l.state ≠ .answering ∨ l.position ≠ l.frameLength) :
    l.halfPeriodOver = { l with halfPeriod := .none, drivesPace := true } := by
  rw [Line.halfPeriodOver, hh]
  exact if_neg (fun hc => hn.elim (fun h => h hc.1) (fun h => h hc.2))

theorem halfPeriodOver_endBit (hh : l.halfPeriod = .high) (ha : l.state = .answering) (hp : l.position = l.frameLength) :
    l.halfPeriodOver = { l with
      halfPeriod := .none, drivesData := l.drivesData && decide (l.role ≠ .sender) } := by
  have hdata : (if l.role = .sender then false else l.drivesData) = (l.drivesData && decide (l.role ≠ .sender)) := by
    by_cases hr : l.role = .sender <;> simp [hr]
  rw [← hdata, Line.halfPeriodOver, hh]
  exact if_pos ⟨ha, hp⟩

theorem answeredWith_driver {a : Answer} (hd : l.driving = true) (hs : l.stretch = .holding) : l.answeredWith a =
    if l.halfPeriod = .low then { l with ownAnswer := a, answered := true, drivesData := a == .take }
    else { l with ownAnswer := a, answered := true, drivesData := a == .take, drivesPace := false, stretch := .released } :=
  if_pos ⟨hd, hs⟩

theorem answeredWith_hearer {a : Answer} (h : l.driving = false ∨ l.stretch ≠ .holding) : l.answeredWith a =
    { l with ownAnswer := a, answered := true } :=
  if_neg (fun hc : l.driving = true ∧ l.stretch = .holding =>
    h.elim (fun hd => by rw [hd] at hc; cases hc.1) (fun hs => hs hc.2))

theorem answeredWith_answer (a : Answer) : (l.answeredWith a).ownAnswer = a ∧ (l.answeredWith a).answered = true := by
  by_cases h : l.driving = true ∧ l.stretch = .holding
  · rw [answeredWith_driver h.1 h.2]
    split <;> exact ⟨rfl, rfl⟩
  · rw [show l.answeredWith a = { l with ownAnswer := a, answered := true } from if_neg h]
    exact ⟨rfl, rfl⟩

end

theorem onAnswerReady_of_waiting {s : State} {a : Answer} (ha : s.decoder.answer = some a) (hh : s.line.heldEnd = none)
    (hn : s.line.answered = false) : onAnswerReady s = s.withLine (s.line.answeredWith a) := by
  simp only [onAnswerReady, ha, hh, hn]; rfl

/-- Settles O54: a fall of PACE, a half-period and the answer, each by the station's part in the bit. -/
theorem paceStretchAndSlots : Obligations.PaceStretchAndSlots := by
  intro s h
  refine ⟨fun hs => ?_, fun p n hs hp hn hlt => ?_, fun hh hst ha => ?_, fun hh hst => ?_, fun hh hn => ?_, fun hh ha hp => ?_,
    fun a ha hh hn => ?_⟩
  · refine ⟨s.withLine s.line.bitBegun, by rw [exec_paceFall h, onPaceFall_sending hs], sameBesidesLine_withLine .., rfl, ?_⟩
    rw [State.withLine_line, bitBegun_of_sending hs]
    exact ⟨rfl, beq_eq_decide .., rfl, rfl, hs⟩
  · have hpn : s.line.position ≠ s.line.frameLength := by
      rw [hp, hn]; exact fun heq => Nat.ne_of_lt hlt (Option.some.inj heq)
    refine ⟨s.withLine s.line.bitBegun, by rw [exec_paceFall h, onPaceFall_answering hs hpn], sameBesidesLine_withLine .., rfl,
      bitBegun_position.trans hp, (Line.bitBegun_state _).trans hs, fun hd => ?_, fun hd => ?_⟩
    · rw [State.withLine_line, bitBegun_of_hearer hs hd]; exact ⟨rfl, rfl⟩
    · rw [State.withLine_line, bitBegun_of_driver hs hd, hp, hn, Option.getD_some, Option.getD_some]
      by_cases h3 : p + 3 = n
      · rw [if_pos h3]
        exact ⟨rfl, rfl, fun _ => ⟨congrArg (s.line.answered && ·) (beq_eq_decide ..), rfl⟩, fun h2 => by omega, fun h1 => by omega⟩
      · rw [if_neg h3]
        by_cases h2 : p + 2 = n
        · rw [if_pos h2]; exact ⟨rfl, rfl, fun h3' => absurd h3' h3, fun _ => beq_eq_decide .., fun h1 => by omega⟩
        · rw [if_neg h2]
          by_cases h1 : p + 1 = n
          · rw [if_pos h1]; exact ⟨rfl, rfl, fun h3' => absurd h3' h3, fun h2' => absurd h2' h2, fun _ => beq_eq_decide ..⟩
          · rw [if_neg h1]; exact ⟨rfl, rfl, fun h3' => absurd h3' h3, fun h2' => absurd h2' h2, fun h1' => absurd h1' h1⟩
  · rw [exec_halfPeriodEnd h, halfPeriodOver_held hh hst ha]
  · rw [exec_halfPeriodEnd h, halfPeriodOver_low hh hst, Stretch.letGo_eq]
  · rw [exec_halfPeriodEnd h, halfPeriodOver_high hh hn]
  · rw [exec_halfPeriodEnd h, halfPeriodOver_endBit hh ha hp]
  · refine ⟨s.withLine (s.line.answeredWith a), by rw [exec_answerReady h, onAnswerReady_of_waiting ha hh hn],
      sameBesidesLine_withLine .., rfl, (answeredWith_answer a).1, (answeredWith_answer a).2, fun hd hst => ⟨fun hl => ?_, fun hl => ?_⟩,
      fun hq => answeredWith_hearer hq⟩
    · rw [State.withLine_line, answeredWith_driver hd hst, if_pos hl, beq_eq_decide]
    · rw [State.withLine_line, answeredWith_driver hd hst, if_neg hl, beq_eq_decide]

end Sys2Proof.Machine
end

section
/-! SUPPORT. What the outcome of a frame does at its owner and at the send unit of its sender (R101, R102, R121, R132), each told by what it
sets and the notices it queues, so that the two orders differ at the host port alone. -/

namespace Sys2Proof.Machine

/-! ### The attempt's outcome at the send unit -/

/-- R86, R132, R136: the send unit after the outcome of its attempt. -/
def SendUnit.attempted (o : AttemptOutcome) (u : SendUnit) : SendUnit :=
  if u.slot = .inFlight then { u with slot := .empty }
  else match u.queue with
    | [] => u
    | e :: rest => match headFate o e with
      | .requeued e' => { u with queue := e' :: rest }
      | .ended oc e' => { u with queue := rest, issued := issuedAfter e' oc u.issued }

/-- R138: the SEND_DONE of an attempt that ends its entry. -/
def State.attemptNotices (o : AttemptOutcome) (s : State) : List Notice :=
  if s.send.slot = .inFlight then []
  else match s.send.queue with
    | [] => []
    | e :: _ => match headFate o e with
      | .requeued _ => []
      | .ended oc e' => [sendDoneNotice e' oc s]

theorem attemptOutcome_eq_attempted (o : AttemptOutcome) (s : State) : attemptOutcome o s =
    (s.withSend (s.send.attempted o)).withPort (s.port.pushAll s.station (s.attemptNotices o)) := by
  unfold attemptOutcome SendUnit.attempted State.attemptNotices
  by_cases hslot : s.send.slot = .inFlight
  · simp only [if_pos hslot]; rfl
  · simp only [if_neg hslot, headOutcome]
    cases hq : s.send.queue with
    | nil => rfl
    | cons e rest =>
      dsimp only
      cases headFate o e with
      | requeued e' => rfl
      | ended oc e' => rfl

theorem attemptNotices_cls {o : AttemptOutcome} {s : State} {n : Notice} (h : n ∈ s.attemptNotices o) : n.cls = .sendDone := by
  unfold State.attemptNotices at h
  split at h
  · cases h
  · split at h
    · cases h
    · split at h
      · cases h
      · rw [List.mem_singleton.1 h]; rfl

theorem length_attemptNotices_le (o : AttemptOutcome) (s : State) : (s.attemptNotices o).length ≤ 1 := by
  unfold State.attemptNotices
  split
  · simp
  · split
    · simp
    · split <;> simp

/-! ### The outcome at the owner -/

/-- R32: the cue table once the provisional entry is ARMED, where there is one. -/
def CueTable.provisionalArmed (now : Time) (t : CueTable) : CueTable :=
  t.provisional.elim { t with offer := none } fun e => { armed := insertEntry now e t.armed, provisional := none, offer := none }

/-- R33. -/
def CueTable.armedNotices (now : Time) (t : CueTable) : List Notice :=
  t.provisional.elim [] fun e => [.cueArmed e.key e.fireTime e.scope e.actions.length e.rep e.origin now]

/-- R40: the cue table without its marked entry. -/
def CueTable.markedRemoved (t : CueTable) : CueTable :=
  (t.armed.find? (fun e => e.withdrawPending)).elim { t with offer := none }
    fun e => { t with armed := removeKey e.key t.armed, offer := none }

/-- R40. -/
def CueTable.removedNotices (t : CueTable) : List Notice :=
  (t.armed.find? (fun e => e.withdrawPending)).elim [] fun e => [.cueRemoved e.key .withdrawn e.fireTime e.count e.origin]

/-- R32, R34, R40, R41: the cue table after the outcome of the frame its offer record is of. -/
def CueTable.decided (o : Outcome) (now : Time) (t : CueTable) : CueTable :=
  match t.offer with
  | none => t
  | some r => match r.effect, o with
    | .newEntry, .commit => t.provisionalArmed now
    | .newEntry, _ => { t with provisional := none, offer := none }
    | .marked, .commit => t.markedRemoved
    | .marked, _ => { t with armed := clearMarks t.armed, offer := none }
    | .held, _ => { t with offer := none }
    | .none, _ => { t with offer := none }

/-- R33, R40: the notice of the cue table at that outcome. -/
def CueTable.decidedNotices (o : Outcome) (now : Time) (t : CueTable) : List Notice :=
  match t.offer with
  | none => []
  | some r => match r.effect, o with
    | .newEntry, .commit => t.armedNotices now
    | .marked, .commit => t.removedNotices
    | _, _ => []

theorem armProvisional_eq_armed (s : State) : armProvisional s =
    (s.withCues (s.cues.provisionalArmed s.clock.lineTime)).withPort
      (s.port.pushAll s.station (s.cues.armedNotices s.clock.lineTime)) := by
  unfold armProvisional CueTable.provisionalArmed CueTable.armedNotices
  split
  · rename_i e hp; rw [hp]; rfl
  · rename_i hp; simp only [hp, Option.elim_none]; rfl

theorem removeMarked_eq_removed (s : State) : removeMarked s =
    (s.withCues s.cues.markedRemoved).withPort (s.port.pushAll s.station s.cues.removedNotices) := by
  unfold removeMarked CueTable.markedRemoved CueTable.removedNotices
  split
  · rename_i e hp; rw [hp]; rfl
  · rename_i hp; rw [hp]; rfl

theorem cueTableOutcome_eq_decided (o : Outcome) (s : State) : cueTableOutcome o s =
    (s.withCues (s.cues.decided o s.clock.lineTime)).withPort
      (s.port.pushAll s.station (s.cues.decidedNotices o s.clock.lineTime)) := by
  unfold cueTableOutcome CueTable.decided CueTable.decidedNotices
  cases s.cues.offer with
  | none => rfl
  | some r =>
    dsimp only
    cases r.effect with
    | newEntry => cases o with
      | commit => exact armProvisional_eq_armed s
      | void => rfl
      | unheard => rfl
      | aborted => rfl
    | marked => cases o with
      | commit => exact removeMarked_eq_removed s
      | void => rfl
      | unheard => rfl
      | aborted => rfl
    | held => cases o <;> rfl
    | none => cases o <;> rfl

theorem armedNotices_cases (now : Time) (t : CueTable) : t.armedNotices now = [] ∨ ∃ n, t.armedNotices now = [n] ∧ n.cls = .cueArmed := by
  unfold CueTable.armedNotices
  cases t.provisional with
  | none => exact .inl rfl
  | some e => exact .inr ⟨_, rfl, rfl⟩

theorem removedNotices_cases (t : CueTable) : t.removedNotices = [] ∨ ∃ n, t.removedNotices = [n] ∧ n.cls = .cueRemoved := by
  unfold CueTable.removedNotices
  cases t.armed.find? (fun e => e.withdrawPending) with
  | none => exact .inl rfl
  | some e => exact .inr ⟨_, rfl, rfl⟩

theorem decidedNotices_cases (o : Outcome) (now : Time) (t : CueTable) :
    t.decidedNotices o now = [] ∨ ∃ n, t.decidedNotices o now = [n] ∧ n.cls ≠ .sendDone := by
  unfold CueTable.decidedNotices
  split
  · exact .inl rfl
  · split
    · exact (armedNotices_cases now t).imp_right fun ⟨n, hn, hc⟩ => ⟨n, hn, by rw [hc]; decide⟩
    · exact (removedNotices_cases t).imp_right fun ⟨n, hn, hc⟩ => ⟨n, hn, by rw [hc]; decide⟩
    · exact .inl rfl

/-- R121, R122: the cue table after an outcome at the frame's owner. -/
def State.ownerCues (o : Outcome) (s : State) : CueTable :=
  if s.decoder.owner = .cueTable then s.cues.decided o s.clock.lineTime else s.cues

/-- R122: the clock record after an outcome other than a beacon's commit. -/
def State.ownerClock (s : State) : Clock :=
  { s.clock with beacon := if s.decoder.owner = .lineClock then none else s.clock.beacon }

/-- R175: the frame's own reservation ends with it. -/
def Decoder.freed (d : Decoder) (p : Port) : Port :=
  { p with reservation := if d.owner = .hostPort then none else p.reservation }

/-- R175: the MESSAGE notice of a commit. -/
def State.messageNotices (o : Outcome) (s : State) : List Notice :=
  match s.port.reservation, o with
  | some r, .commit => [.message r.sender r.scope s.clock.lineTime s.rxBody]
  | _, _ => []

/-- R33, R40, R175: the notices of an outcome at the frame's owner, other than a beacon's commit. -/
def State.ownerNotices (o : Outcome) (s : State) : List Notice :=
  match s.decoder.owner with
  | .cueTable => s.cues.decidedNotices o s.clock.lineTime
  | .hostPort => s.messageNotices o
  | .lineClock => []
  | .none => []

theorem hostPortOutcome_eq_message (o : Outcome) (s : State) : hostPortOutcome o s =
    s.withPort (({ s.port with reservation := none } : Port).pushAll s.station (s.messageNotices o)) := by
  unfold hostPortOutcome State.messageNotices
  cases hres : s.port.reservation with
  | none =>
    have hsame : ({ s.port with reservation := none } : Port) = s.port := by rw [← hres]
    rw [hsame]
    cases o <;> rfl
  | some r => cases o <;> rfl

theorem messageNotices_cases (o : Outcome) (s : State) : s.messageNotices o = [] ∨ ∃ n, s.messageNotices o = [n] ∧ n.cls = .message := by
  unfold State.messageNotices
  split
  · exact .inr ⟨_, rfl, rfl⟩
  · exact .inl rfl

/-- A station with an outcome taken: the blocks it reaches, and the count of free values. -/
def State.decidedAs (s : State) (cues : CueTable) (clock : Clock) (send : SendUnit) (port : Port) (order : Nat) : State :=
  ((((s.withCues cues).withClock clock).withSend send).withPort port).withOrder order

theorem deliverToOwner_eq {o : Outcome} {s : State} (h : o = .commit → s.decoder.owner ≠ .lineClock) :
    deliverToOwner o s = s.decidedAs (s.ownerCues o) s.ownerClock s.send
      ((s.decoder.freed s.port).pushAll s.station (s.ownerNotices o)) s.order := by
  unfold deliverToOwner State.ownerCues State.ownerClock Decoder.freed State.ownerNotices
  cases howner : s.decoder.owner with
  | none => rfl
  | cueTable => dsimp only; rw [cueTableOutcome_eq_decided]; rfl
  | lineClock =>
    cases o with
    | commit => exact absurd howner (h rfl)
    | void => rfl
    | unheard => rfl
    | aborted => rfl
  | hostPort => exact hostPortOutcome_eq_message o s

theorem ownerNotices_cases (o : Outcome) (s : State) :
    s.ownerNotices o = [] ∨ ∃ n, s.ownerNotices o = [n] ∧ n.cls ≠ .sendDone := by
  unfold State.ownerNotices
  split
  · exact decidedNotices_cases ..
  · exact (messageNotices_cases o s).imp_right fun ⟨n, hn, hc⟩ => ⟨n, hn, by rw [hc]; decide⟩
  · exact .inl rfl
  · exact .inl rfl

theorem ownerNotices_aborted (s : State) : s.ownerNotices .aborted = [] := by
  unfold State.ownerNotices State.messageNotices CueTable.decidedNotices
  cases s.decoder.owner with
  | none => rfl
  | lineClock => rfl
  | hostPort => cases s.port.reservation <;> rfl
  | cueTable =>
    dsimp only
    cases s.cues.offer with
    | none => rfl
    | some r => dsimp only; cases r.effect <;> rfl

end Sys2Proof.Machine
end

section
/-! SUPPORT. Owner and sender take an outcome at one instant (R101, R121; log entry 30): the port after their notices in either order, and the
station after both and after station control (R159, R166). -/

namespace Sys2Proof.Machine

/-! ### The notices of two blocks, in either order -/

/-- R121, R172: `q` is the port `p` after the owner's notices `own`, with which the frame's reservation ends, and the attempt's `att`,
in one order or the other. -/
def Decoder.Tells (d : Decoder) (t : Station) (p : Port) (own att : List Notice) (q : Port) : Prop :=
  q = ((d.freed p).pushAll t own).pushAll t att ∨ q = (d.freed (p.pushAll t att)).pushAll t own

theorem freed_used_le (d : Decoder) (p : Port) : (d.freed p).used ≤ p.used := by
  unfold Decoder.freed Port.used
  dsimp only
  by_cases h : d.owner = .hostPort
  · rw [if_pos h]; simp
  · rw [if_neg h]

section
variable {d : Decoder} {t : Station} {p q : Port} {own att : List Notice} (h : d.Tells t p own att q)
include h

theorem Decoder.Tells.of_noAttempt (hatt : att = []) : q = (d.freed p).pushAll t own := by
  subst hatt
  exact h.elim id id

theorem Decoder.Tells.reservation : q.reservation = (d.freed p).reservation := by
  rcases h with rfl | rfl
  · rw [Port.pushAll_reservation, Port.pushAll_reservation]
  · rw [Port.pushAll_reservation]
    unfold Decoder.freed
    dsimp only
    rw [Port.pushAll_reservation]

theorem Decoder.Tells.mem_of_mem {m : Notice} (hm : m ∈ p.notices) : m ∈ q.notices := by
  rcases h with rfl | rfl
  · exact Port.mem_pushAll_of_mem (Port.mem_pushAll_of_mem hm)
  · exact Port.mem_pushAll_of_mem (Port.mem_pushAll_of_mem (p := p) (ns := att) hm)

theorem Decoder.Tells.mem_cases {m : Notice} (hm : m ∈ q.notices) : m ∈ p.notices ∨ m ∈ own ∨ m ∈ att := by
  rcases h with rfl | rfl
  · rcases Port.mem_pushAll hm with hm | hm
    · exact (Port.mem_pushAll hm).imp_right .inl
    · exact .inr (.inr hm)
  · rcases Port.mem_pushAll hm with hm | hm
    · exact (Port.mem_pushAll (p := p) (ns := att) hm).imp_right .inr
    · exact .inr (.inl hm)

theorem Decoder.Tells.mem_of_room {m : Notice} (hroom : p.used + own.length + att.length ≤ 16) (hm : m ∈ own ∨ m ∈ att)
    (hon : t.enables m.cls = true) : m ∈ q.notices := by
  have hfreed := freed_used_le d p
  rcases h with rfl | rfl
  · have hused := (d.freed p).used_pushAll_le t own
    rcases hm with hm | hm
    · exact Port.mem_pushAll_of_mem (Port.mem_pushAll_of_room (by omega) hm hon)
    · exact Port.mem_pushAll_of_room (by omega) hm hon
  · have hused := p.used_pushAll_le t att
    have hfreed' := freed_used_le d (p.pushAll t att)
    rcases hm with hm | hm
    · exact Port.mem_pushAll_of_room (by omega) hm hon
    · exact Port.mem_pushAll_of_mem (Port.mem_pushAll_of_room (p := p) (by omega) hm hon)

theorem Decoder.Tells.used_le : q.used ≤ p.used + own.length + att.length := by
  have hfreed := freed_used_le d p
  rcases h with rfl | rfl
  · have h1 := (d.freed p).used_pushAll_le t own
    have h2 := ((d.freed p).pushAll t own).used_pushAll_le t att
    omega
  · have h1 := p.used_pushAll_le t att
    have h2 := freed_used_le d (p.pushAll t att)
    have h3 := (d.freed (p.pushAll t att)).used_pushAll_le t own
    omega

end

/-- R172: notices of other classes leave those of one class as they are. -/
theorem filter_pushAll_of_other {t : Station} {p : Port} {ns : List Notice} {c : NoticeClass} (hns : ∀ m ∈ ns, m.cls ≠ c) :
    (p.pushAll t ns).notices.filter (fun n => decide (n.cls = c)) = p.notices.filter (fun n => decide (n.cls = c)) := by
  induction ns generalizing p with
  | nil => rfl
  | cons n ns ih =>
    rw [Port.pushAll_cons, ih fun m hm => hns m (List.mem_cons_of_mem _ hm)]
    have hn := hns n List.mem_cons_self
    rcases p.push_cases (t.enables n.cls) n with ⟨-, he, -⟩ | ⟨-, -, he, -⟩ | ⟨-, -, he, -⟩ <;> rw [he]
    rw [List.filter_append, List.filter_cons_of_neg (by simpa using hn), List.filter_nil, List.append_nil]

/-- R138: with room, the SEND_DONEs of the attempt are the one thing added to them. -/
theorem Decoder.Tells.sendDones {d : Decoder} {t : Station} {p q : Port} {own att : List Notice} (h : d.Tells t p own att q)
    (hown : ∀ m ∈ own, m.cls ≠ .sendDone) (hatt : ∀ m ∈ att, m.cls = .sendDone)
    (hroom : att = [] ∨ p.used + own.length + att.length ≤ 16) :
    q.notices.filter (fun n => decide (n.cls = .sendDone)) = p.notices.filter (fun n => decide (n.cls = .sendDone)) ++ att := by
  have hall : att.filter (fun n => t.enables n.cls) = att :=
    List.filter_eq_self.2 fun m hm => by rw [hatt m hm]; rfl
  have hdone : att.filter (fun n => decide (n.cls = .sendDone)) = att :=
    List.filter_eq_self.2 fun m hm => decide_eq_true (hatt m hm)
  have hfreed := freed_used_le d p
  have hadded (x : Port) (hx : att = [] ∨ x.used + att.length ≤ 16) : (x.pushAll t att).notices = x.notices ++ att := by
    rcases hx with rfl | hx
    · exact (List.append_nil _).symm
    · rw [(x.pushAll_notices t att hx).1, hall]
  rcases h with rfl | rfl
  · have hused := (d.freed p).used_pushAll_le t own
    rw [hadded _ (hroom.imp_right fun _ => by omega), List.filter_append, filter_pushAll_of_other hown, hdone]
    rfl
  · rw [filter_pushAll_of_other hown]
    change (p.pushAll t att).notices.filter _ = _
    rw [hadded _ (hroom.imp_right fun _ => by omega), List.filter_append, hdone]

/-! ### The outcome at the owner and at the sender -/

/-- R102: the send unit after the frame of a station that sent it, or did not. -/
def SendUnit.afterFrame (sends : Bool) (o : AttemptOutcome) (u : SendUnit) : SendUnit := if sends then u.attempted o else u

/-- R138: the SEND_DONE with it. -/
def State.frameNotices (sends : Bool) (o : AttemptOutcome) (s : State) : List Notice := if sends then s.attemptNotices o else []

theorem attempt_eq (sends : Bool) (o : AttemptOutcome) (s : State) : (if sends then attemptOutcome o s else s) =
    (s.withSend (s.send.afterFrame sends o)).withPort (s.port.pushAll s.station (s.frameNotices sends o)) := by
  cases sends with
  | false => rfl
  | true => exact attemptOutcome_eq_attempted o s

theorem frameNotices_cls {sends : Bool} {o : AttemptOutcome} {s : State} {n : Notice} (h : n ∈ s.frameNotices sends o) :
    n.cls = .sendDone := by
  cases sends with
  | false => cases h
  | true => exact attemptNotices_cls h

theorem length_frameNotices_le (sends : Bool) (o : AttemptOutcome) (s : State) : (s.frameNotices sends o).length ≤ 1 := by
  cases sends with
  | false => exact Nat.zero_le _
  | true => exact length_attemptNotices_le o s

theorem length_ownerNotices_le (o : Outcome) (s : State) : (s.ownerNotices o).length ≤ 1 := by
  rcases ownerNotices_cases o s with h | ⟨n, h, -⟩ <;> simp [h]

theorem ownerNotices_cls {o : Outcome} {s : State} {n : Notice} (h : n ∈ s.ownerNotices o) : n.cls ≠ .sendDone := by
  rcases ownerNotices_cases o s with he | ⟨m, he, hm⟩
  · rw [he] at h; cases h
  · rw [he] at h; rw [List.mem_singleton.1 h]; exact hm

/-- R121: an outcome other than a beacon's commit, at the owner and at the sender. -/
theorem outcome_delivered {o : Outcome} {s : State} (sends : Bool) (ao : AttemptOutcome)
    (h : o = .commit → s.decoder.owner ≠ .lineClock) :
    ∃ p n, s.decoder.Tells s.station s.port (s.ownerNotices o) (s.frameNotices sends ao) p ∧
      eitherOrder (deliverToOwner o) (fun s => if sends then attemptOutcome ao s else s) s =
        s.decidedAs (s.ownerCues o) s.ownerClock (s.send.afterFrame sends ao) p n := by
  have hfirst (x : State) (hx : o = .commit → x.decoder.owner ≠ .lineClock) :
      (if sends then attemptOutcome ao (deliverToOwner o x) else deliverToOwner o x) =
        x.decidedAs (x.ownerCues o) x.ownerClock (x.send.afterFrame sends ao)
          (((x.decoder.freed x.port).pushAll x.station (x.ownerNotices o)).pushAll x.station (x.frameNotices sends ao)) x.order := by
    rw [attempt_eq, deliverToOwner_eq hx]
    rfl
  have hlast (x : State) (hx : o = .commit → x.decoder.owner ≠ .lineClock) :
      deliverToOwner o (if sends then attemptOutcome ao x else x) =
        x.decidedAs (x.ownerCues o) x.ownerClock (x.send.afterFrame sends ao)
          ((x.decoder.freed (x.port.pushAll x.station (x.frameNotices sends ao))).pushAll x.station (x.ownerNotices o)) x.order := by
    rw [attempt_eq]
    have hnotices : ((x.withSend (x.send.afterFrame sends ao)).withPort
        (x.port.pushAll x.station (x.frameNotices sends ao))).ownerNotices o = x.ownerNotices o := by
      unfold State.ownerNotices State.messageNotices
      simp only [State.withPort_decoder, State.withSend_decoder, State.withPort_port, Port.pushAll_reservation]
      rfl
    refine (deliverToOwner_eq (by exact hx)).trans ?_
    rw [hnotices]
    rfl
  rcases eitherOrder_cases (deliverToOwner o) (fun s => if sends then attemptOutcome ao s else s) s with e | e | e
  · exact ⟨_, s.order, .inl rfl, e.trans (hfirst s h)⟩
  · exact ⟨_, s.order + 1, .inr rfl, e.trans (hlast (s.withOrder (s.order + 1)) h)⟩
  · exact ⟨_, s.order + 1, .inl rfl, e.trans (hfirst (s.withOrder (s.order + 1)) h)⟩

/-! ### The frame's end at station control -/

theorem closeFrame_of_none {s : State} (hd : s.station.dupPending = false) (hl : s.station.leavePending = false) :
    closeFrame s = s.withDecoder .reset := by
  unfold closeFrame
  rw [if_neg (by rw [hd]; exact Bool.false_ne_true), if_neg (by rw [hl]; exact Bool.false_ne_true)]

/-- R159, R166: what waited for the end of the frame takes the station to SILENT, a duplicate ID before a LEAVE. -/
theorem closeFrame_of_waiting {s : State} (h : s.station.dupPending = true ∨ s.station.leavePending = true) :
    closeFrame s = (enterSilent (if s.station.dupPending then .duplicateId else .leave)
      (if s.station.dupPending then s.decoder.kind else none) s).withDecoder .reset := by
  unfold closeFrame
  cases hd : s.station.dupPending with
  | true => rfl
  | false => rw [hd] at h; rw [h.resolve_left Bool.false_ne_true]; rfl

end Sys2Proof.Machine
end

section
/-! SUPPORT. The outcome of a CUE, WITHDRAW, MESSAGE or ownerless frame (R32 to R34, R40, R41, R175), and the obligations on the ends of frames
that are no BEACON. -/

namespace Sys2Proof.Machine

/-! ### The cue table at an outcome -/

section
variable {t : CueTable} {r : OfferRecord} {now : Time} {o : Outcome}

theorem CueTable.decided_none (h : t.offer = none) : t.decided o now = t ∧ t.decidedNotices o now = [] := by
  unfold CueTable.decided CueTable.decidedNotices
  rw [h]
  exact ⟨rfl, rfl⟩

section
variable (h : t.offer = some r)
include h

theorem CueTable.decided_new_commit {e : CueEntry} (heff : r.effect = .newEntry) (hp : t.provisional = some e) :
    t.decided .commit now = { armed := insertEntry now e t.armed, provisional := none, offer := none } ∧
      t.decidedNotices .commit now = [.cueArmed e.key e.fireTime e.scope e.actions.length e.rep e.origin now] := by
  simp only [CueTable.decided, CueTable.decidedNotices, CueTable.provisionalArmed, CueTable.armedNotices, h, heff, hp,
    Option.elim_some, and_self]

theorem CueTable.decided_new_other (heff : r.effect = .newEntry) (ho : o ≠ .commit) :
    t.decided o now = { t with provisional := none, offer := none } ∧ t.decidedNotices o now = [] := by
  cases o with
  | commit => exact absurd rfl ho
  | void | unheard | aborted => simp only [CueTable.decided, CueTable.decidedNotices, h, heff, and_self]

theorem CueTable.decided_marked_other (heff : r.effect = .marked) (ho : o ≠ .commit) :
    t.decided o now = { t with armed := clearMarks t.armed, offer := none } ∧ t.decidedNotices o now = [] := by
  cases o with
  | commit => exact absurd rfl ho
  | void | unheard | aborted => simp only [CueTable.decided, CueTable.decidedNotices, h, heff, and_self]

theorem CueTable.decided_marked_commit {e : CueEntry} (heff : r.effect = .marked)
    (hfind : t.armed.find? (fun e => e.withdrawPending) = some e) :
    t.decided .commit now = { t with armed := removeKey e.key t.armed, offer := none } ∧
      t.decidedNotices .commit now = [.cueRemoved e.key .withdrawn e.fireTime e.count e.origin] := by
  simp only [CueTable.decided, CueTable.decidedNotices, CueTable.markedRemoved, CueTable.removedNotices, h, heff, hfind,
    Option.elim_some, and_self]

theorem CueTable.decided_marked_gone (heff : r.effect = .marked)
    (hfind : t.armed.find? (fun e => e.withdrawPending) = none) :
    t.decided .commit now = { t with offer := none } ∧ t.decidedNotices .commit now = [] := by
  simp only [CueTable.decided, CueTable.decidedNotices, CueTable.markedRemoved, CueTable.removedNotices, h, heff, hfind,
    Option.elim_none, and_self]

theorem CueTable.decided_standing (heff : r.effect = .held ∨ r.effect = .none) :
    t.decided o now = { t with offer := none } ∧ t.decidedNotices o now = [] := by
  simp only [CueTable.decided, CueTable.decidedNotices, h]
  rcases heff with heff | heff <;> rw [heff] <;> cases o <;> exact ⟨rfl, rfl⟩

end

end

/-- R41: marks are cleared where there are none to clear. -/
theorem clearMarks_of_unmarked {es : List CueEntry} (h : ∀ e ∈ es, e.withdrawPending = false) : clearMarks es = es :=
  (List.map_congr_left fun e he => by rw [← h e he]; rfl).trans (List.map_id es)

theorem clearMarks_at {before after : List CueEntry} {e : CueEntry} (h : ∀ x ∈ before ++ after, x.withdrawPending = false) :
    clearMarks (before ++ e :: after) = before ++ { e with withdrawPending := false } :: after := by
  have hb : clearMarks before = before := clearMarks_of_unmarked fun x hx => h x (List.mem_append_left _ hx)
  have ha : clearMarks after = after := clearMarks_of_unmarked fun x hx => h x (List.mem_append_right _ hx)
  calc clearMarks (before ++ e :: after)
      = clearMarks before ++ { e with withdrawPending := false } :: clearMarks after := List.map_append
    _ = _ := by rw [hb, ha]

theorem find_marked_at {before after : List CueEntry} {e : CueEntry} (he : e.withdrawPending = true)
    (h : ∀ x ∈ before ++ after, x.withdrawPending = false) :
    (before ++ e :: after).find? (fun e => e.withdrawPending) = some e := by
  have hb : before.find? (fun e => e.withdrawPending) = none :=
    List.find?_eq_none.2 fun x hx => by rw [h x (List.mem_append_left _ hx)]; exact Bool.false_ne_true
  rw [List.find?_append, hb, Option.none_or, List.find?_cons_of_pos he]

theorem count_eq (e : CueEntry) : e.count = (e.rep.map (fun x => x.count)).getD 0 := by
  unfold CueEntry.count
  cases e.rep <;> rfl

/-! ### The end condition -/

section
variable {s : State} {take veto : Level} (h : s.atEnd take veto)
include h

theorem onEndCondition_atEnd : onEndCondition s =
    if s.line.answered then deliverOutcome take veto (s.withLine s.line.seeBothHigh)
    else s.withLine { s.line.seeBothHigh.frameOver .waitIdle with heldEnd := some (take, veto) } := by
  obtain ⟨-, hstate, hpos, hpace, htake, hveto⟩ := h
  rw [onEndCondition, hstate]
  dsimp only
  rw [if_pos ⟨hpos, hpace⟩, htake, hveto]
  rfl

/-- R101, R121: the end condition of a frame whose outcome is no beacon's commit. -/
theorem frame_ends (hans : s.line.answered = true) (hown : outcomeOf take veto = .commit → s.decoder.owner ≠ .lineClock) :
    ∃ p n, s.decoder.Tells s.station s.port (s.ownerNotices (outcomeOf take veto))
        (s.frameNotices s.line.sendsFrame (attemptOf (outcomeOf take veto))) p ∧
      exec .endCondition s = .next (closeFrame ((s.withLine (s.line.seeBothHigh.frameOver .waitIdle)).decidedAs
        (s.ownerCues (outcomeOf take veto)) s.ownerClock
        (s.send.afterFrame s.line.sendsFrame (attemptOf (outcomeOf take veto))) p n)) := by
  obtain ⟨p, n, htells, he⟩ := outcome_delivered (o := outcomeOf take veto)
    (s := s.withLine (s.line.seeBothHigh.frameOver .waitIdle)) s.line.sendsFrame (attemptOf (outcomeOf take veto)) hown
  refine ⟨p, n, htells, ?_⟩
  rw [exec_endCondition h.1, onEndCondition_atEnd h, if_pos hans]
  exact congrArg (fun t => Host.Outcome.next (closeFrame t)) he

end

theorem outcomeOf_commit_iff (take veto : Level) : outcomeOf take veto = .commit ↔ take = .low ∧ veto = .high := by
  cases take <;> cases veto <;> decide

theorem ownerClock_of_other {s : State} (h : s.decoder.owner ≠ .lineClock) : s.ownerClock = s.clock := by
  unfold State.ownerClock
  rw [if_neg h]

theorem sendsFrame_receiver {l : Line} (h : l.role = .receiver) : l.sendsFrame = false := by
  unfold Line.sendsFrame
  rw [h]

theorem sendsFrame_won {l : Line} (h : l.role = .sender) (ha : l.arbitration = .won) : l.sendsFrame = true := by
  unfold Line.sendsFrame
  rw [h, ha]

theorem freed_of_other {d : Decoder} (h : d.owner ≠ .hostPort) (p : Port) : d.freed p = p := by
  unfold Decoder.freed
  rw [if_neg h]

theorem freed_of_hostPort {d : Decoder} (h : d.owner = .hostPort) (p : Port) : d.freed p = { p with reservation := none } := by
  unfold Decoder.freed
  rw [if_pos h]

theorem ownerNotices_cueTable {s : State} (h : s.decoder.owner = .cueTable) (o : Outcome) :
    s.ownerNotices o = s.cues.decidedNotices o s.clock.lineTime := by
  unfold State.ownerNotices
  rw [h]

theorem ownerNotices_hostPort {s : State} (h : s.decoder.owner = .hostPort) (o : Outcome) : s.ownerNotices o = s.messageNotices o := by
  unfold State.ownerNotices
  rw [h]

theorem ownerNotices_none {s : State} (h : s.decoder.owner = .none) (o : Outcome) : s.ownerNotices o = [] := by
  unfold State.ownerNotices
  rw [h]

theorem ownerCues_cueTable {s : State} (h : s.decoder.owner = .cueTable) (o : Outcome) :
    s.ownerCues o = s.cues.decided o s.clock.lineTime := if_pos h

theorem ownerCues_of_other {s : State} (h : s.decoder.owner ≠ .cueTable) (o : Outcome) : s.ownerCues o = s.cues := if_neg h

theorem messageNotices_free {s : State} (h : s.port.reservation = none) (o : Outcome) : s.messageNotices o = [] := by
  unfold State.messageNotices
  rw [h]

theorem messageNotices_commit {s : State} {r : Reservation} (h : s.port.reservation = some r) :
    s.messageNotices .commit = [.message r.sender r.scope s.clock.lineTime s.rxBody] := by
  unfold State.messageNotices
  rw [h]

theorem messageNotices_other {s : State} {o : Outcome} (h : o ≠ .commit) : s.messageNotices o = [] := by
  unfold State.messageNotices
  split
  · exact absurd rfl h
  · rfl

/-- Settles O55: the outcome reaches the owner and the sender in either order, and each case is the owner's own. -/
theorem cueFrameEndsInItsOutcome : Obligations.CueFrameEndsInItsOutcome := by
  intro s take veto h hans hdup hleave hrole howner
  dsimp only
  obtain ⟨p, n, htells, he⟩ := frame_ends h hans fun _ => howner
  have hcommit := outcomeOf_commit_iff take veto
  generalize outcomeOf take veto = o at *
  have hreceiver (hr : s.line.role = .receiver) : s.line.sendsFrame = false := sendsFrame_receiver hr
  have hatt (hr : s.line.role = .receiver) : s.frameNotices s.line.sendsFrame (attemptOf o) = [] := by rw [hreceiver hr]; rfl
  have hlen := length_frameNotices_le s.line.sendsFrame (attemptOf o) s
  have hone (x : Notice) (hx : s.ownerNotices o = [x]) :
      (s.line.role = .receiver → p = (s.decoder.freed s.port).push (s.station.enables x.cls) x) ∧
        (s.line.role = .sender → s.port.used + 2 ≤ 16 → s.station.enables x.cls = true → x ∈ p.notices) := by
    rw [hx] at htells
    exact ⟨fun hr => htells.of_noAttempt (hatt hr), fun _ hroom hon =>
      htells.mem_of_room (by rw [List.length_singleton]; omega) (.inl List.mem_cons_self) hon⟩
  have hnone (hx : s.ownerNotices o = []) : (s.line.role = .receiver → p = s.decoder.freed s.port) ∧
      ∀ x ∈ p.notices, x.cls ≠ .sendDone → x ∈ s.port.notices := by
    rw [hx] at htells
    refine ⟨fun hr => htells.of_noAttempt (hatt hr), fun x hm hc => ?_⟩
    rcases htells.mem_cases hm with hm | hm | hm
    · exact hm
    · cases hm
    · exact absurd (frameNotices_cls hm) hc
  have hclose := closeFrame_of_none (s := (s.withLine (s.line.seeBothHigh.frameOver .waitIdle)).decidedAs (s.ownerCues o) s.ownerClock
    (s.send.afterFrame s.line.sendsFrame (attemptOf o)) p n) hdup hleave
  rw [hclose] at he
  refine ⟨_, he, rfl, rfl, rfl, ownerClock_of_other howner, rfl, rfl, rfl, rfl, rfl, fun hr => ?_, fun hcue => ?_, fun hno => ?_,
    fun hport => ?_⟩
  · exact congrArg (fun b => s.send.afterFrame b (attemptOf o)) (hreceiver hr)
  · have hfreed := freed_of_other (d := s.decoder) (by rw [hcue]; exact FrameOwner.noConfusion) s.port
    rw [ownerNotices_cueTable hcue, hfreed] at hone hnone
    have hsame (c : CueTable) (hc : s.cues.decided o s.clock.lineTime = c ∧ s.cues.decidedNotices o s.clock.lineTime = []) :=
      And.intro ((ownerCues_cueTable hcue o).trans hc.1) (hnone hc.2)
    have hchanged (c : CueTable) (x : Notice)
        (hc : s.cues.decided o s.clock.lineTime = c ∧ s.cues.decidedNotices o s.clock.lineTime = [x]) :=
      And.intro ((ownerCues_cueTable hcue o).trans hc.1) (hone x hc.2)
    refine ⟨?_, fun r e hr heff hp => ⟨fun hc => ?_, fun hc => ?_⟩, fun r before after e hr heff harmed hmark hothers =>
      ⟨fun hc => ?_, fun hc => ?_⟩, fun r hr heff hunmarked => ?_, fun r hr heff => ?_, fun hr => ?_⟩
    · exact htells.reservation.trans (congrArg Port.reservation hfreed)
    · obtain rfl := hcommit.2 hc
      exact hchanged _ _ (CueTable.decided_new_commit hr heff hp)
    · exact hsame _ (CueTable.decided_new_other hr heff (mt hcommit.1 hc))
    · obtain rfl := hcommit.2 hc
      have hfind := find_marked_at hmark fun x hx => (hothers x hx).1
      rw [← harmed] at hfind
      have hgone := removeKey_of_unique e.key before after e rfl fun x hx => (hothers x hx).2
      have hd := CueTable.decided_marked_commit (now := s.clock.lineTime) hr heff hfind
      rw [harmed, hgone, count_eq] at hd
      exact hchanged _ _ hd
    · have hd := CueTable.decided_marked_other (now := s.clock.lineTime) hr heff (mt hcommit.1 hc)
      rw [harmed, clearMarks_at fun x hx => (hothers x hx).1] at hd
      exact hsame _ hd
    · refine hsame _ ?_
      by_cases hc : o = .commit
      · rw [hc]
        exact CueTable.decided_marked_gone hr heff (List.find?_eq_none.2 fun x hx => by
          rw [hunmarked x hx]; exact Bool.false_ne_true)
      · have hd := CueTable.decided_marked_other (now := s.clock.lineTime) hr heff hc
        rw [clearMarks_of_unmarked hunmarked] at hd
        exact hd
    · exact hsame _ (CueTable.decided_standing hr heff)
    · exact hsame _ (CueTable.decided_none hr)
  · have hfreed := freed_of_other (d := s.decoder) (by rw [hno]; exact FrameOwner.noConfusion) s.port
    rw [hfreed] at hnone
    exact ⟨ownerCues_of_other (by rw [hno]; exact FrameOwner.noConfusion) o,
      htells.reservation.trans (congrArg Port.reservation hfreed), hnone (ownerNotices_none hno o)⟩
  · have hfreed := freed_of_hostPort hport s.port
    rw [ownerNotices_hostPort hport, hfreed] at hone hnone
    refine ⟨ownerCues_of_other (by rw [hport]; exact FrameOwner.noConfusion) o,
      htells.reservation.trans (congrArg Port.reservation hfreed), fun hres => ?_, fun r hres => ⟨fun hc => ?_, fun hc => ?_⟩⟩
    · have hsame : ({ s.port with reservation := none } : Port) = s.port := by rw [← hres]
      rw [hsame] at hnone
      exact hnone (messageNotices_free hres o)
    · obtain rfl := hcommit.2 hc
      exact hone _ (messageNotices_commit hres)
    · exact hnone (messageNotices_other (mt hcommit.1 hc))

end Sys2Proof.Machine
end

section
/-! SUPPORT. What an outcome makes of the head of the queue (R132, R133, R136, R138), and the obligation on the end of an own attempt. -/

namespace Sys2Proof.Machine

/-! ### The head at an outcome -/

section
variable {s : State} {e e' : SendEntry} {rest : List SendEntry} {o : AttemptOutcome}

theorem attempted_beacon (h : s.send.slot = .inFlight) (o : AttemptOutcome) :
    s.send.attempted o = { s.send with slot := .empty } ∧ s.attemptNotices o = [] := ⟨if_pos h, if_pos h⟩

variable (hslot : s.send.slot ≠ .inFlight) (hq : s.send.queue = e :: rest)
include hslot hq

theorem attempted_ended {oc : SendOutcome} (hf : headFate o e = .ended oc e') :
    s.send.attempted o = { s.send with queue := rest, issued := issuedAfter e' oc s.send.issued } ∧
      s.attemptNotices o = [sendDoneNotice e' oc s] := by
  unfold SendUnit.attempted State.attemptNotices
  rw [if_neg hslot, if_neg hslot, hq]
  dsimp only
  rw [hf]
  exact ⟨rfl, rfl⟩

theorem attempted_requeued (hf : headFate o e = .requeued e') :
    s.send.attempted o = { s.send with queue := e' :: rest } ∧ s.attemptNotices o = [] := by
  unfold SendUnit.attempted State.attemptNotices
  rw [if_neg hslot, if_neg hslot, hq]
  dsimp only
  rw [hf]
  exact ⟨rfl, rfl⟩

end

/-! ### The fates -/

section
variable {e : SendEntry}

theorem backToQueue_retired (h : e.retire = true) : backToQueue e = .ended .purged e := if_pos h

theorem backToQueue_kept (h : e.retire = false) : backToQueue e = .requeued e := if_neg (by rw [h]; exact Bool.false_ne_true)

theorem headFate_unheard_last (h : e.attemptsLeft ≤ 1) : headFate .unheard e = .ended .unheard e.counted :=
  if_pos (Nat.sub_eq_zero_of_le h)

theorem headFate_unheard_before (h : 2 ≤ e.attemptsLeft) : headFate .unheard e = backToQueue e.counted :=
  if_neg (fun h0 : e.attemptsLeft - 1 = 0 => by omega)

end

/-- Settles O56: the slots' outcome decides the head's fate, and the queue's and the report's part of it follow from that. -/
theorem ownAttemptEndsOrReturns : Obligations.OwnAttemptEndsOrReturns := by
  intro s take veto e rest h hans hrole harb howner hdup hleave hslot hq
  dsimp only
  obtain ⟨p, n, htells, he⟩ := frame_ends h hans fun _ => howner
  rw [sendsFrame_won hrole harb] at htells he
  have hclose := closeFrame_of_none (s := (s.withLine (s.line.seeBothHigh.frameOver .waitIdle)).decidedAs
    (s.ownerCues (outcomeOf take veto)) s.ownerClock (s.send.afterFrame true (attemptOf (outcomeOf take veto))) p n) hdup hleave
  rw [hclose] at he
  have hreports (hroom : s.attemptNotices (attemptOf (outcomeOf take veto)) = [] ∨ s.port.used + 2 ≤ 16) :=
    htells.sendDones (fun _ => ownerNotices_cls) (fun _ => frameNotices_cls) (hroom.imp_right fun hroom => by
      have h1 := length_ownerNotices_le (outcomeOf take veto) s
      have h2 := length_frameNotices_le true (attemptOf (outcomeOf take veto)) s
      omega)
  have hends (oc : SendOutcome) (hf : headFate (attemptOf (outcomeOf take veto)) e = .ended oc e.counted) :=
    attempted_ended hslot hq hf
  refine ⟨_, he, rfl, rfl, rfl, ownerClock_of_other howner, rfl, rfl, rfl, fun ht hv => ?_, fun hv => ?_, fun ht hv hl => ?_,
    fun ht hv hl hr => ?_, fun ht hv hl hr => ?_⟩
  · obtain ⟨hu, hn⟩ := hends .accepted (by rw [ht, hv]; rfl)
    exact ⟨hu, fun hroom => (hreports (.inr hroom)).trans (congrArg _ hn)⟩
  · obtain ⟨hu, hn⟩ := hends .refused (by rw [hv]; rfl)
    exact ⟨hu, fun hroom => (hreports (.inr hroom)).trans (congrArg _ hn)⟩
  · obtain ⟨hu, hn⟩ := hends .unheard (by rw [ht, hv]; exact headFate_unheard_last hl)
    exact ⟨hu, fun hroom => (hreports (.inr hroom)).trans (congrArg _ hn)⟩
  · obtain ⟨hu, hn⟩ := hends .purged (by
      rw [ht, hv]; exact (headFate_unheard_before hl).trans (backToQueue_retired hr))
    exact ⟨hu, fun hroom => (hreports (.inr hroom)).trans (congrArg _ hn)⟩
  · obtain ⟨hu, hn⟩ := attempted_requeued (e' := e.counted) (o := attemptOf (outcomeOf take veto)) hslot hq (by
      rw [ht, hv]; exact (headFate_unheard_before hl).trans (backToQueue_kept hr))
    exact ⟨hu, (hreports (.inl hn)).trans ((congrArg _ hn).trans (List.append_nil _))⟩

end Sys2Proof.Machine
end

section
/-! SUPPORT. What waited for the end of a frame (R100, R159, R166): the entry to SILENT at a frame's end, the end condition that waits for the
answer, and the obligation on both. -/

namespace Sys2Proof.Machine

/-! ### The station record at an outcome -/

theorem enterActive_onlyState (cause : StationCause) (s : State) :
    ∃ x, (enterActive cause s).station = { s.station with state := x } := by
  rw [enterActive_station]
  split
  · exact ⟨_, rfl⟩
  · exact ⟨_, rfl⟩

theorem adoptBeacon_onlyState (b : BeaconRecord) (s : State) :
    ∃ x, (adoptBeacon b s).station = { s.station with state := x } := by
  unfold adoptBeacon
  split
  · exact ⟨_, rfl⟩
  · rename_i cause _
    cases cause <;> dsimp only <;> split
    · exact enterActive_onlyState _ _
    · exact ⟨_, rfl⟩
    · exact enterActive_onlyState _ _
    · exact ⟨_, rfl⟩

/-- R158: an outcome changes the station state at most, by the adoption of a beacon. -/
theorem deliverToOwner_onlyState (o : Outcome) (s : State) :
    ∃ x, (deliverToOwner o s).station = { s.station with state := x } := by
  by_cases h : o = .commit → s.decoder.owner ≠ .lineClock
  · rw [deliverToOwner_eq h]
    exact ⟨_, rfl⟩
  · obtain ⟨rfl, howner⟩ := Classical.not_imp.1 h
    rw [Classical.not_not] at howner
    unfold deliverToOwner
    rw [howner]
    unfold lineClockOutcome
    dsimp only
    split
    · exact ⟨_, (touches_ownBeaconCommits s).station (by simp)⟩
    · split
      · rename_i b _
        obtain ⟨x, hx⟩ := adoptBeacon_onlyState b (yieldSlot b.sender s)
        exact ⟨x, hx.trans (by rw [(touches_yieldSlot b.sender s).station (by simp)])⟩
      · exact ⟨_, rfl⟩

/-! ### A frame's outcome taken by owner and sender -/

/-- R101, R121: the station when owner and sender have taken the slots' outcome, before station control. -/
def State.outcomeTaken (take veto : Level) (s : State) : State :=
  eitherOrder (deliverToOwner (outcomeOf take veto))
    (fun t => if s.line.sendsFrame then attemptOutcome (attemptOf (outcomeOf take veto)) t else t)
    (s.withLine (s.line.frameOver .waitIdle))

theorem deliverOutcome_eq_taken (take veto : Level) (s : State) : deliverOutcome take veto s = closeFrame (s.outcomeTaken take veto) := rfl

theorem touches_outcomeTaken (take veto : Level) (s : State) :
    Touches [.order, .clock, .work, .station, .send, .cues, .port] (s.withLine (s.line.frameOver .waitIdle))
      (s.outcomeTaken take veto) := by
  refine Touches.eitherOrder (fun x => touches_deliverToOwner _ x) (fun x => ?_) _
  split
  · exact (touches_attemptOutcome _ x).mono (by simp)
  · exact .refl _ x

theorem outcomeTaken_onlyState (take veto : Level) (s : State) :
    ∃ x, (s.outcomeTaken take veto).station = { s.station with state := x } := by
  refine eitherOrder_keeps (P := fun t => ∃ x, t.station = { s.station with state := x }) (fun t ⟨x, hx⟩ => ?_) (fun t ⟨x, hx⟩ => ?_)
    (fun _ _ h => h) _ ⟨s.station.state, rfl⟩
  · obtain ⟨y, hy⟩ := deliverToOwner_onlyState (outcomeOf take veto) t
    exact ⟨y, by rw [hy, hx]⟩
  · dsimp only
    split
    · exact ⟨x, ((touches_attemptOutcome _ t).station (by simp)).trans hx⟩
    · exact ⟨x, hx⟩

/-- R101: of the line an outcome takes the sender's part and what the frame's end leaves. -/
theorem deliverOutcome_congr {s : State} {l l' : Line} {take veto : Level} (hs : l.sendsFrame = l'.sendsFrame)
    (hf : l.frameOver .waitIdle = l'.frameOver .waitIdle) :
    deliverOutcome take veto (s.withLine l) = deliverOutcome take veto (s.withLine l') := by
  change closeFrame (eitherOrder _ (fun t => if l.sendsFrame then _ else t) (s.withLine (l.frameOver .waitIdle))) = _
  rw [hs, hf]
  rfl

/-- R121, R172: an outcome that is no beacon's commit queues two notices at most and leaves what STATION tells of. -/
theorem outcomeTaken_other {s : State} (take veto : Level) (h : s.decoder.owner ≠ .lineClock) :
    (s.outcomeTaken take veto).station = s.station ∧ (s.outcomeTaken take veto).decoder = s.decoder ∧
      (s.outcomeTaken take veto).clock.lineTime = s.clock.lineTime ∧ (s.outcomeTaken take veto).port.used ≤ s.port.used + 2 := by
  obtain ⟨p, n, htells, he⟩ := outcome_delivered (o := outcomeOf take veto) (s := s.withLine (s.line.frameOver .waitIdle))
    s.line.sendsFrame (attemptOf (outcomeOf take veto)) fun _ => h
  have heq : s.outcomeTaken take veto = _ := he
  rw [heq]
  have hused := htells.used_le
  have h1 := length_ownerNotices_le (outcomeOf take veto) (s.withLine (s.line.frameOver .waitIdle))
  have h2 := length_frameNotices_le s.line.sendsFrame (attemptOf (outcomeOf take veto)) (s.withLine (s.line.frameOver .waitIdle))
  exact ⟨rfl, rfl, rfl, hused.trans (by
    rw [Nat.add_assoc]; exact Nat.add_le_add_left (Nat.add_le_add h1 h2) s.port.used)⟩

/-! ### SILENT at the end of a frame -/

theorem Port.head_mem_pushAll {p : Port} {t : Station} {n : Notice} {ns : List Notice} (hroom : p.used < 16)
    (hon : t.enables n.cls = true) : n ∈ (p.pushAll t (n :: ns)).notices := by
  rw [Port.pushAll_cons]
  refine Port.mem_pushAll_of_mem ?_
  rw [(p.push_used _ n hroom).1, hon]
  exact List.mem_append_right _ List.mem_cons_self

/-- R160: the entry to SILENT at a frame's end, with STATION the first of its notices. -/
theorem closeFrame_silences {s : State} (h : s.station.dupPending = true ∨ s.station.leavePending = true) : ∃ n ns,
    closeFrame s = ((s.silenced.withPort (s.port.pushAll s.station.silenced
      (.station (some s.station.state) .silent (if s.station.dupPending then .duplicateId else .leave)
        (if s.station.dupPending then s.decoder.kind else none) s.station.id s.clock.lineTime :: ns))).withOrder n).withDecoder
      .reset := by
  obtain ⟨n, ns, -, he⟩ := enterSilent_eq (if s.station.dupPending then .duplicateId else .leave)
    (if s.station.dupPending then s.decoder.kind else none) s
  exact ⟨n, ns, (closeFrame_of_waiting h).trans (congrArg (fun t => t.withDecoder Decoder.reset) he)⟩

/-- R90, R160: a SILENT station without a frame uses no line. -/
theorem silenced_usesLine {s : State} (h : s.line.role ≠ .sender) : s.silenced.usesLine = false := by
  have hrole : (s.line.role == .sender) = false := beq_false_of_ne h
  exact congrArg (fun b => b || false) ((Bool.false_or _).trans hrole)

theorem silenced_slot (s : State) : s.silenced.send.slot ≠ .queued := by
  change (if s.send.slot = .queued then BeaconSlot.empty else s.send.slot) ≠ .queued
  split
  · exact BeaconSlot.noConfusion
  · assumption

/-! ### The end condition before the answer -/

theorem onAnswerReady_of_held {s : State} {a : Answer} {take veto : Level} (ha : s.decoder.answer = some a)
    (hh : s.line.heldEnd = some (take, veto)) :
    onAnswerReady s = deliverOutcome take veto (s.withLine { s.line with heldEnd := none }) := by
  simp only [onAnswerReady, ha, hh]

/-- R131: outside IDLE no offer is called for. -/
theorem settled_withLine {s : State} (h : s.settled = true) {l : Line} (hl : l.state ≠ .idle) :
    (s.withLine l).settled = true := by
  have hline : (l.state == .idle) = false := beq_false_of_ne hl
  have hmay : (s.withLine l).mayOffer = false := by
    change (s.station.state == .active && l.state == .idle) = false
    rw [hline, Bool.and_false]
  unfold State.settled State.headOfferDue State.beaconOfferDue
  rw [hmay, State.withLine_work, State.settled_work h]
  rfl

theorem after_of_exec {c : Instr} {s t : State} (h : exec c s = .next t) : s.after c = t := by
  rw [exec_eq_next_after] at h
  exact Host.Outcome.next.inj h

theorem closeFrame_line {s : State} : (closeFrame s).line.state = s.line.state ∧ (closeFrame s).line.heldEnd = s.line.heldEnd := by
  by_cases h : s.station.dupPending = true ∨ s.station.leavePending = true
  · obtain ⟨n, ns, he⟩ := closeFrame_silences h
    rw [he]
    exact ⟨rfl, rfl⟩
  · rw [not_or, Bool.not_eq_true, Bool.not_eq_true] at h
    rw [closeFrame_of_none h.1 h.2]
    exact ⟨rfl, rfl⟩

theorem closeFrame_decoder (s : State) : (closeFrame s).decoder = .reset := rfl

/-- Settles O58: SILENT comes of `closeFrame` on whatever the outcome left, and the end condition that waits is handed on as it
would have come after the answer. -/
theorem frameEndTakesWhatWaited : Obligations.FrameEndTakesWhatWaited := by
  intro s take veto h
  refine ⟨fun hans hwait => ?_, fun hans => ?_, fun a hans hrole hdriving hheld ha => ?_⟩
  · have hexec : exec .endCondition s = .next (closeFrame ((s.withLine s.line.seeBothHigh).outcomeTaken take veto)) := by
      rw [exec_endCondition h.1, onEndCondition_atEnd h, if_pos hans, deliverOutcome_eq_taken]
    have htouched := touches_outcomeTaken take veto (s.withLine s.line.seeBothHigh)
    obtain ⟨x, hstation⟩ := outcomeTaken_onlyState take veto (s.withLine s.line.seeBothHigh)
    have hroomy := outcomeTaken_other (s := s.withLine s.line.seeBothHigh) take veto
    generalize (s.withLine s.line.seeBothHigh).outcomeTaken take veto = u at hexec htouched hstation hroomy
    have hdup : u.station.dupPending = s.station.dupPending := by rw [hstation]; rfl
    obtain ⟨n, ns, hclose⟩ := closeFrame_silences (s := u) (by rw [hstation]; exact hwait)
    have hrole : u.line.role ≠ .sender := by
      rw [htouched.line (by simp)]; exact Role.noConfusion
    rw [hclose] at hexec
    refine ⟨_, hexec, rfl, htouched.points (by simp), htouched.inputs (by simp), ?_, rfl, rfl, silenced_slot u,
      silenced_usesLine hrole, fun howner hroom => ?_⟩
    · change u.station.silenced = _
      rw [hstation]; rfl
    · obtain ⟨hst, hdec, htime, hused⟩ := hroomy howner
      have hnotice := Port.head_mem_pushAll (p := u.port) (t := u.station.silenced) (n := .station (some u.station.state) .silent
        (if u.station.dupPending then .duplicateId else .leave) (if u.station.dupPending then u.decoder.kind else none) u.station.id
        u.clock.lineTime) (ns := ns) (Nat.lt_of_le_of_lt hused (Nat.lt_of_succ_le hroom)) rfl
      rw [hst, hdec, htime] at hnotice
      rw [hst, hdec, htime]
      exact hnotice
  · rw [exec_endCondition h.1, onEndCondition_atEnd h, hans]; rfl
  · have hfirst : s.after .endCondition = s.withLine { s.line.seeBothHigh.frameOver .waitIdle with heldEnd := some (take, veto) } :=
      after_of_exec (by rw [exec_endCondition h.1, onEndCondition_atEnd h, hans]; rfl)
    have hlater : s.after .answerReady = s.withLine { s.line with ownAnswer := a, answered := true } :=
      after_of_exec (by rw [exec_answerReady h.1, onAnswerReady_of_waiting ha hheld hans, answeredWith_hearer (.inl hdriving)])
    have hover : ({ s.line with ownAnswer := a, answered := true } : Line).seeBothHigh.frameOver .waitIdle =
        ({ s.line.seeBothHigh.frameOver .waitIdle with heldEnd := none } : Line).frameOver .waitIdle := by
      change s.line.seeBothHigh.frameOver .waitIdle = { s.line.seeBothHigh.frameOver .waitIdle with heldEnd := none }
      rw [← hheld]
      rfl
    have hatEnd : (s.withLine { s.line with ownAnswer := a, answered := true }).atEnd take veto :=
      ⟨settled_withLine h.1 (by rw [h.2.1]; exact LineState.noConfusion), h.2⟩
    have hheldSettled : (s.withLine { s.line.seeBothHigh.frameOver .waitIdle with heldEnd := some (take, veto) }).settled = true :=
      settled_withLine h.1 LineState.noConfusion
    refine ⟨deliverOutcome take veto (s.withLine { s.line.seeBothHigh.frameOver .waitIdle with heldEnd := none }), ?_, ?_,
      closeFrame_line.2.trans (congrArg Line.heldEnd ((touches_outcomeTaken ..).line (by simp))),
      closeFrame_line.1.trans (congrArg Line.state ((touches_outcomeTaken ..).line (by simp))), rfl⟩
    · rw [hfirst, exec_answerReady hheldSettled]
      exact congrArg Host.Outcome.next (onAnswerReady_of_held ha rfl)
    · rw [hlater, exec_endCondition hatEnd.1, onEndCondition_atEnd hatEnd]
      exact congrArg Host.Outcome.next (deliverOutcome_congr (sendsFrame_receiver hrole) hover)

end Sys2Proof.Machine
end

section
/-! SUPPORT. The abort of a frame (R86, R108, R109, R122, R132, R133, R136, R138, R159, R166): what the owner discards, what becomes of the
attempt, and LINE_ERROR beside it in either order. -/

namespace Sys2Proof.Machine

/-! ### The owner at an abort -/

theorem ownerCues_aborted {s : State} {r : OfferRecord} (howner : s.decoder.owner = .cueTable) (hr : s.cues.offer = some r) :
    s.ownerCues .aborted =
      { armed := if r.effect = .marked then s.cues.armed.map (fun e => { e with withdrawPending := false }) else s.cues.armed,
        provisional := if r.effect = .newEntry then none else s.cues.provisional,
        offer := none } := by
  rw [ownerCues_cueTable howner]
  cases heff : r.effect with
  | newEntry => exact (CueTable.decided_new_other hr heff Outcome.noConfusion).1
  | marked => exact (CueTable.decided_marked_other hr heff Outcome.noConfusion).1
  | held => exact (CueTable.decided_standing hr (.inl heff)).1
  | none => exact (CueTable.decided_standing hr (.inr heff)).1

theorem ownerCues_withoutOffer {s : State} (o : Outcome) (h : s.decoder.owner = .cueTable → s.cues.offer = none) :
    s.ownerCues o = s.cues := by
  by_cases howner : s.decoder.owner = .cueTable
  · rw [ownerCues_cueTable howner]
    exact (CueTable.decided_none (h howner)).1
  · exact ownerCues_of_other howner o

theorem ownerClock_eq (s : State) : s.ownerClock =
    if s.decoder.owner = .lineClock then { s.clock with beacon := none } else s.clock := by
  unfold State.ownerClock
  split <;> rfl

/-! ### The broken attempt -/

/-- R132: the entry after a BROKEN attempt. -/
def SendEntry.broken (e : SendEntry) : SendEntry :=
  { e with attemptsLeft := e.attemptsLeft - 1, inFlight := false, brokenSeen := true }

theorem headFate_broken_last {e : SendEntry} (h : e.attemptsLeft ≤ 1) : headFate .broken e = .ended .broken e.broken :=
  if_pos (Nat.sub_eq_zero_of_le h)

theorem headFate_broken_before {e : SendEntry} (h : 2 ≤ e.attemptsLeft) : headFate .broken e = backToQueue e.broken :=
  if_neg (fun h0 : e.attemptsLeft - 1 = 0 => by omega)

/-- R133: of an ending without an ACCEPTED the issued list keeps the serials of CUEs that were BROKEN. -/
theorem issuedAfter_unaccepted {o : SendOutcome} (ho : o ≠ .accepted) (e : SendEntry) (l : List Issued) :
    issuedAfter e o l = l ++ issuedByEnding [e] := issuedAfter_foldl o ho [e] l

theorem sendsFrame_of_sending {l : Line} (h : l.role = .sender) (ha : l.arbitration = .contending ∨ l.arbitration = .won) :
    l.sendsFrame = true := by
  unfold Line.sendsFrame
  rcases ha with ha | ha <;> rw [h, ha]

theorem sendsFrame_of_notSender {l : Line} (h : l.role ≠ .sender) : l.sendsFrame = false := by
  unfold Line.sendsFrame
  cases hr : l.role with
  | sender => exact absurd hr h
  | receiver | none => rfl

/-! ### LINE_ERROR beside the attempt -/

/-- R108, R132: the attempt's outcome and a notice, in one order or the other. -/
theorem notice_besideAttempt (sends : Bool) (ao : AttemptOutcome) (m : Notice) (s : State) :
    ∃ p n, Decoder.reset.Tells s.station s.port [m] (s.frameNotices sends ao) p ∧
      eitherOrder (fun t => if sends then attemptOutcome ao t else t) (notify m) s =
        ((s.withSend (s.send.afterFrame sends ao)).withPort p).withOrder n := by
  have hfirst (x : State) : notify m (if sends then attemptOutcome ao x else x) = (x.withSend (x.send.afterFrame sends ao)).withPort
      ((Decoder.reset.freed (x.port.pushAll x.station (x.frameNotices sends ao))).pushAll x.station [m]) := by
    rw [attempt_eq]; rfl
  have hlast (x : State) : (if sends then attemptOutcome ao (notify m x) else notify m x) =
      (x.withSend (x.send.afterFrame sends ao)).withPort
        (((Decoder.reset.freed x.port).pushAll x.station [m]).pushAll x.station (x.frameNotices sends ao)) := by
    rw [attempt_eq]; rfl
  rcases eitherOrder_cases (fun t => if sends then attemptOutcome ao t else t) (notify m) s with e | e | e
  · exact ⟨_, s.order, .inr rfl, e.trans (hfirst s)⟩
  · exact ⟨_, s.order + 1, .inl rfl, e.trans (hlast (s.withOrder (s.order + 1)))⟩
  · exact ⟨_, s.order + 1, .inr rfl, e.trans (hfirst (s.withOrder (s.order + 1)))⟩

/-- R108, R122: an abort, before station control: the owner has discarded, the attempt is over, LINE_ERROR is told. -/
def State.broken (s : State) (port : Port) (order : Nat) : State :=
  ((s.withLine (s.line.frameOver .recover)).decidedAs (s.ownerCues .aborted) s.ownerClock
    (s.send.afterFrame s.line.sendsFrame .broken) port order).withWork { s.work with arbLost := false, evaluate := false }

theorem abortFrame_eq (cause : LineErrorCause) (wire : Option Wire) (s : State) : ∃ p n,
    Decoder.reset.Tells s.station (s.decoder.freed s.port) [lineErrorNotice cause wire s] (s.frameNotices s.line.sendsFrame .broken) p ∧
      abortFrame cause wire s = closeFrame (s.broken p n) := by
  have hdeliver : deliverToOwner .aborted (s.withLine (s.line.frameOver .recover)) =
      (s.withLine (s.line.frameOver .recover)).decidedAs (s.ownerCues .aborted) s.ownerClock s.send (s.decoder.freed s.port)
        s.order := by
    rw [deliverToOwner_eq (o := .aborted) (fun h => nomatch h), ownerNotices_aborted]
    rfl
  obtain ⟨p, n, htells, he⟩ := notice_besideAttempt s.line.sendsFrame .broken (lineErrorNotice cause wire s)
    (((s.withLine (s.line.frameOver .recover)).decidedAs (s.ownerCues .aborted) s.ownerClock s.send (s.decoder.freed s.port)
        s.order).withWork { s.work with arbLost := false, evaluate := false })
  refine ⟨p, n, htells, ?_⟩
  unfold abortFrame
  dsimp only
  rw [hdeliver]
  exact congrArg closeFrame he

end Sys2Proof.Machine
end

section
/-! SUPPORT. The station after an abort (State.abortedTo), and the obligation on the rows that raise a fault (R93, R96, R105 to R109). -/

namespace Sys2Proof.Machine

/-! ### The head at an abort -/

section
variable {s : State} {e : SendEntry} {rest : List SendEntry} (hslot : s.send.slot ≠ .inFlight) (hq : s.send.queue = e :: rest)
include hslot hq

theorem attempted_broken_ended {o : SendOutcome} (ho : o ≠ .accepted) (hf : headFate .broken e = .ended o e.broken) :
    s.send.attempted .broken = { s.send with queue := rest, issued := s.send.issued ++ issuedByEnding [e.broken] } ∧
      s.attemptNotices .broken = [s.doneWith o e.broken] := by
  obtain ⟨hu, hn⟩ := attempted_ended hslot hq hf
  rw [issuedAfter_unaccepted ho] at hu
  exact ⟨hu, hn⟩

end

/-- R136: the retire mark of a BROKEN entry decides once attempts are left. -/
theorem headFate_broken_retired {e : SendEntry} (h : 2 ≤ e.attemptsLeft) (hr : e.retire = true) :
    headFate .broken e = .ended .purged e.broken := (headFate_broken_before h).trans (backToQueue_retired hr)

theorem headFate_broken_kept {e : SendEntry} (h : 2 ≤ e.attemptsLeft) (hr : e.retire = false) :
    headFate .broken e = .requeued e.broken := (headFate_broken_before h).trans (backToQueue_kept hr)

/-! ### The station after an abort -/

/-- R108: what no part of an abort changes, and what the frame's end leaves. -/
theorem broken_closed_base (s : State) (p : Port) (n : Nat) (hw : s.work = Work.none) :
    let t := closeFrame (s.broken p n)
    t.line.state = .recover ∧ t.line.role = .none ∧ t.line.position = none ∧ t.line.drivesPace = false ∧
      t.line.drivesData = false ∧ t.decoder = Decoder.reset ∧ t.work = Work.none ∧ t.points = s.points ∧ t.inputs = s.inputs ∧
      t.peers = s.peers ∧ t.pins = s.pins ∧ t.port.reservation = p.reservation ∧ t.cues = s.ownerCues .aborted ∧
      ∀ x ∈ p.notices, x ∈ t.port.notices := by
  dsimp only
  have hwork : (s.broken p n).work = Work.none := congrArg (fun w => { w with arbLost := false, evaluate := false }) hw
  have htouched := touches_closeFrame (s.broken p n)
  have hpoints := htouched.points (by simp)
  have hinputs := htouched.inputs (by simp)
  have hpeers := htouched.peers (by simp)
  have hpins := htouched.pins (by simp)
  have hcues := htouched.cues (by simp)
  by_cases h : s.station.dupPending = true ∨ s.station.leavePending = true
  · obtain ⟨m, ns, he⟩ := closeFrame_silences (s := s.broken p n) h
    rw [he] at hpoints hinputs hpeers hpins hcues ⊢
    exact ⟨rfl, rfl, rfl, rfl, rfl, rfl, hwork, hpoints, hinputs, hpeers, hpins, Port.pushAll_reservation _ p _, hcues,
      fun x hx => Port.mem_pushAll_of_mem (p := p) hx⟩
  · rw [not_or, Bool.not_eq_true, Bool.not_eq_true] at h
    rw [closeFrame_of_none (s := s.broken p n) h.1 h.2] at hpoints hinputs hpeers hpins hcues ⊢
    exact ⟨rfl, rfl, rfl, rfl, rfl, rfl, hwork, hpoints, hinputs, hpeers, hpins, rfl, hcues, fun x hx => hx⟩

/-- R86, R108, R109, R122, R132, R159, R166: an abort of the frame on the line, whole. -/
theorem abortFrame_abortedTo {s : State} (hw : s.work = Work.none) (hin : s.line.inFrame = true) (cause : LineErrorCause)
    (wire : Option Wire) : s.abortedTo (abortFrame cause wire s) cause wire := by
  obtain ⟨p, n, htells, he⟩ := abortFrame_eq cause wire s
  rw [he]
  obtain ⟨hstate, hrole, hpos, hpace, hdata, hdec, hwork, hpoints, hinputs, hpeers, hpins, hres, hcues, hnotices⟩ :=
    broken_closed_base s p n hw
  have herr : lineErrorNotice cause wire s = .lineError cause wire s.line.state s.line.position s.line.role s.decoder.kind
      s.decoder.sender s.clock.lineTime := if_pos hin
  have hlen := length_frameNotices_le s.line.sendsFrame .broken s
  have hfreed := freed_used_le s.decoder s.port
  have hused := htells.used_le
  rw [List.length_singleton] at hused
  have htold (m : Notice) (hm : m = lineErrorNotice cause wire s ∨ m ∈ s.frameNotices s.line.sendsFrame .broken)
      (hroom : s.port.used + 2 ≤ 16) (hon : s.station.enables m.cls = true) : m ∈ p.notices :=
    htells.mem_of_room (by rw [List.length_singleton]; omega) (hm.imp_left fun hm => by rw [hm]; exact List.mem_cons_self) hon
  refine ⟨hstate, hrole, hpos, hpace, hdata, hdec, hwork, hpoints, hinputs, hpeers, hpins, hres.trans htells.reservation, ?_,
    fun hroom hon => hnotices _ (by rw [← herr]; exact htold _ (.inl rfl) hroom (by rw [herr]; exact hon)), fun hwait => ?_,
    fun hdup hleave => ?_⟩
  · rw [hcues]
    split
    · rename_i hr
      exact ownerCues_aborted ‹_› hr
    · rename_i hno
      exact ownerCues_withoutOffer _ fun howner => Option.eq_none_iff_forall_ne_some.2 fun r hr => hno r howner hr
  · obtain ⟨m, ns, hclose⟩ := closeFrame_silences (s := s.broken p n) hwait
    rw [hclose]
    refine ⟨rfl, rfl, rfl, silenced_slot (s.broken p n), silenced_usesLine (s := s.broken p n) Role.noConfusion, fun hroom => ?_⟩
    exact Port.head_mem_pushAll (p := p) (by omega) rfl
  · rw [closeFrame_of_none (s := s.broken p n) hdup hleave]
    refine ⟨rfl, ownerClock_eq s, fun hrole => congrArg (s.send.afterFrame · .broken) (sendsFrame_of_notSender hrole),
      fun hsender harb => ?_⟩
    have hsends := sendsFrame_of_sending hsender harb
    have hsend : (s.broken p n).send = s.send.attempted .broken := congrArg (s.send.afterFrame · .broken) hsends
    have hdone : s.frameNotices s.line.sendsFrame .broken = s.attemptNotices .broken := by rw [hsends]; rfl
    rw [hdone] at htold
    refine ⟨fun hslot => hsend.trans (attempted_beacon hslot .broken).1, fun e rest hslot hq => ?_⟩
    have hends (o : SendOutcome) (ho : o ≠ .accepted) (hf : headFate .broken e = .ended o e.broken) :
        (s.broken p n).send = { s.send with queue := rest, issued := s.send.issued ++ issuedByEnding [e.broken] } ∧
          (s.port.used + 2 ≤ 16 → s.doneWith o e.broken ∈ p.notices) := by
      obtain ⟨hu, hn⟩ := attempted_broken_ended hslot hq ho hf
      exact ⟨hsend.trans hu, fun hroom => htold _ (.inr (by rw [hn]; exact List.mem_cons_self)) hroom rfl⟩
    exact ⟨fun hl => hends .broken SendOutcome.noConfusion (headFate_broken_last hl),
      fun hl hr => hends .purged SendOutcome.noConfusion (headFate_broken_retired hl hr),
      fun hl hr => hsend.trans (attempted_requeued hslot hq (headFate_broken_kept hl hr)).1⟩

/-! ### The rows that raise a fault -/

theorem inFrame_iff (l : Line) : l.inFrame = true ↔ l.state = .sending ∨ l.state = .receiving ∨ l.state = .answering := by
  unfold Line.inFrame
  cases l.state <;> simp

section
variable {s : State} (hin : s.line.inFrame = true)
include hin

theorem onStartCondition_inFrame (own : Bool) : onStartCondition own s =
    abortFrame .framing none (s.withLine (s.line.seeBothHigh.seeData .low)) := by
  unfold onStartCondition
  rcases (inFrame_iff s.line).1 hin with h | h | h <;> rw [h]

theorem onEndCondition_early
    (h : ¬(s.line.state = .answering ∧ s.line.position = s.line.frameLength ∧ s.line.paceWire = .high)) :
    onEndCondition s = abortFrame .framing none (s.withLine s.line.seeBothHigh) := by
  unfold onEndCondition
  rcases (inFrame_iff s.line).1 hin with hs | hs | hs
  · rw [hs]
  · rw [hs]
  · rw [hs]
    exact if_neg fun hc => h ⟨hs, hc⟩

theorem onFraming_inFrame : onFraming s = abortFrame .framing none s := if_pos hin

theorem onStall_high (h : s.line.paceWire = .high) : onStall s = abortFrame .stall none s :=
  (if_pos hin).trans (if_neg (by rw [h]; exact Level.noConfusion))

theorem onStall_low (h : s.line.paceWire = .low) :
    onStall s = abortFrame .stuckLow (some .pace) (s.withLine (s.line.stuck .pace)) := (if_pos hin).trans (if_pos h)

end

/-- R107: a fall of PACE after the end bit. -/
theorem onPaceFall_afterEnd {s : State} (h : s.line.state = .answering) (hp : s.line.position = s.line.frameLength) :
    onPaceFall s = abortFrame .framing none (s.withLine (s.line.seePace .low)) := by
  rw [onPaceFall, h]
  exact if_pos hp

/-- R105: a low run is reported once. -/
theorem stuckIsNew_of (l : Line) (w : Wire) (risen : Bool) (hoff : l.state ≠ .off) :
    l.stuckIsNew w risen = (risen || !(l.lowTimer w).reported) := by
  have hon : (l.state != .off) = true := bne_iff_ne.2 hoff
  unfold Line.stuckIsNew
  rw [hon, Bool.true_and]
  cases risen with
  | false => rfl
  | true => cases w <;> rfl

theorem onStuckLow_inFrame {s : State} {w : Wire} {risen : Bool} (hnew : s.line.stuckIsNew w risen = true)
    (hin : s.line.inFrame = true) : onStuckLow w risen s = abortFrame .stuckLow (some w) (s.withLine (s.line.stuck w)) :=
  (if_neg (by rw [hnew]; exact Bool.noConfusion)).trans (if_pos hin)

theorem onStuckLow_outside {s : State} {w : Wire} {risen : Bool} (hnew : s.line.stuckIsNew w risen = true)
    (hin : s.line.inFrame = false) : onStuckLow w risen s = notify (lineErrorNotice .stuckLow (some w) s)
      ((s.withLine { s.line.stuck w with state := .recover, idleCount := 0 }).withSend { s.send with offered := .none }) :=
  (if_neg (by rw [hnew]; exact Bool.noConfusion)).trans (if_neg (by rw [hin]; exact Bool.noConfusion))

theorem onStuckLow_told {s : State} {w : Wire} {risen : Bool} (hold : s.line.stuckIsNew w risen = false) :
    onStuckLow w risen s = s := if_pos hold

/-- R105: what STUCK_LOW shows is on the wires alone. -/
theorem stuck_kept (l : Line) (w : Wire) : (l.stuck w).state = l.state ∧ (l.stuck w).position = l.position ∧
    (l.stuck w).role = l.role ∧ (l.stuck w).arbitration = l.arbitration ∧ ((l.stuck w).lowTimer w).reported = true := by
  cases w <;> exact ⟨rfl, rfl, rfl, rfl, rfl⟩

/-- An abort is told by the frame's part of the line, whatever the wires show. -/
theorem State.abortedTo_withLine {s t : State} {l : Line} {cause : LineErrorCause} {wire : Option Wire} (hs : l.state = s.line.state)
    (hp : l.position = s.line.position) (hr : l.role = s.line.role) (ha : l.arbitration = s.line.arbitration)
    (h : (s.withLine l).abortedTo t cause wire) : s.abortedTo t cause wire := by
  unfold State.abortedTo at h ⊢
  rw [State.withLine_line, hs, hp, hr, ha] at h
  exact h

theorem abort_ofRow {s : State} {c : Instr} {l : Line} {cause : LineErrorCause} {wire : Option Wire} (hsettled : s.settled = true)
    (hin : s.line.inFrame = true) (hs : l.state = s.line.state) (hp : l.position = s.line.position) (hr : l.role = s.line.role)
    (ha : l.arbitration = s.line.arbitration) (he : exec c s = .next (abortFrame cause wire (s.withLine l))) :
    ∃ t, exec c s = .next t ∧ s.abortedTo t cause wire :=
  ⟨_, he, State.abortedTo_withLine hs hp hr ha
    (abortFrame_abortedTo (s := s.withLine l) (show s.work = Work.none from State.settled_work hsettled)
      (by rw [inFrame_iff] at hin ⊢; rw [State.withLine_line, hs]; exact hin) cause wire)⟩

/-- Settles O60: each row that shows a fault in a frame is an abort, and STUCK_LOW outside one is its own case. -/
theorem faultsAbortTheFrame : Obligations.FaultsAbortTheFrame := by
  intro s h
  refine ⟨fun c cause wire ⟨hin, hraise⟩ => ?_, fun w risen hoff => ⟨fun hrisen hold => ?_, fun hout hnew => ?_⟩⟩
  · rcases hraise with ⟨hbreaks, rfl, rfl⟩ | ⟨rfl, hpace, rfl, rfl⟩ | ⟨rfl, hpace, rfl, rfl⟩ | ⟨w, risen, rfl, hnew, rfl, rfl⟩
    · rcases hbreaks with rfl | ⟨own, rfl⟩ | ⟨rfl, hplace⟩ | ⟨rfl, hans, hpos⟩
      · exact abort_ofRow (l := s.line) h hin rfl rfl rfl rfl (by rw [exec_framing h, onFraming_inFrame hin]; rfl)
      · exact abort_ofRow (l := s.line.seeBothHigh.seeData .low) h hin rfl rfl rfl rfl (by
          rw [exec_startCondition h, onStartCondition_inFrame hin])
      · exact abort_ofRow (l := s.line.seeBothHigh) h hin rfl rfl rfl rfl (by
          rw [exec_endCondition h, onEndCondition_early hin hplace])
      · exact abort_ofRow (l := s.line.seePace .low) h hin rfl rfl rfl rfl (by
          rw [exec_paceFall h, onPaceFall_afterEnd hans hpos])
    · exact abort_ofRow (l := s.line) h hin rfl rfl rfl rfl (by rw [exec_stall h, onStall_high hin hpace]; rfl)
    · exact abort_ofRow (l := s.line.stuck .pace) h hin rfl rfl rfl rfl (by rw [exec_stall h, onStall_low hin hpace])
    · have hoff : s.line.state ≠ .off := by
        rcases (inFrame_iff s.line).1 hin with hs | hs | hs <;> rw [hs] <;> exact LineState.noConfusion
      have hstuck : s.line.stuckIsNew w risen = true := by
        rw [stuckIsNew_of _ _ _ hoff]
        rcases hnew with hnew | hnew <;> rw [hnew] <;> simp
      obtain ⟨hs, hp, hr, ha, -⟩ := stuck_kept s.line w
      exact abort_ofRow h hin hs hp hr ha (by rw [exec_stuckLow h, onStuckLow_inFrame hstuck hin])
  · rw [exec_stuckLow h, onStuckLow_told (by rw [stuckIsNew_of _ _ _ hoff, hrisen, hold]; rfl)]
  · have hstuck : s.line.stuckIsNew w risen = true := by
      rw [stuckIsNew_of _ _ _ hoff]
      rcases hnew with hnew | hnew <;> rw [hnew] <;> simp
    have herr : lineErrorNotice .stuckLow (some w) s = .lineError .stuckLow (some w) s.line.state none .none none none s.clock.lineTime :=
      if_neg (by rw [hout]; exact Bool.noConfusion)
    refine ⟨notify (lineErrorNotice .stuckLow (some w) s)
      ((s.withLine { s.line.stuck w with state := .recover, idleCount := 0 }).withSend { s.send with offered := .none }),
      by rw [exec_stuckLow h, onStuckLow_outside hstuck hout], rfl, ?_, rfl, rfl, rfl, rfl, rfl, rfl, rfl, rfl, ?_⟩
    · obtain ⟨-, -, -, -, hreported⟩ := stuck_kept s.line w
      cases w <;> exact hreported
    · rw [← herr]
      exact congrArg (s.port.push · _) (by rw [herr]; rfl)

end Sys2Proof.Machine
end

section
/-! SUPPORT. A rise of PACE in a frame (R92, R98, R111 to R113), its comparison by the sender, and the obligation on both. -/

namespace Sys2Proof.Machine

/-! ### The decoder at a sampled bit -/

section
variable (d : Decoder) (p : Nat) (rx : List Bool) (b : Bool)

theorem sampled_length_of_ne (h : p ≠ 23) : (d.sampled p rx b).length = d.length := by
  unfold Decoder.sampled
  dsimp only
  repeat' split
  all_goals rfl

theorem sampled_length_at : ∃ n, (d.sampled 23 rx b).length = some n := ⟨_, rfl⟩

/-- R112: past the header the accumulator takes the bits of the body. -/
theorem sampled_checkAcc {n : Nat} (hn : d.length = some n) (h : 24 ≤ p) :
    (d.sampled p rx b).checkAcc = if p ≤ 23 + 8 * n then checkFeed d.checkAcc b else d.checkAcc := by
  unfold Decoder.sampled
  rw [hn, if_neg (by omega), if_neg (by omega), if_neg (by omega), if_neg (by omega), if_neg (by omega)]
  have hlate : decide (p ≤ 23) = false := decide_eq_false (by omega)
  dsimp only
  rw [hlate, Bool.false_or]
  by_cases hp : p ≤ 23 + 8 * n
  · rw [if_pos hp, if_pos (decide_eq_true hp)]
  · rw [if_neg hp, if_neg (by rw [decide_eq_true_eq]; exact hp)]

end

theorem frameLengthOf_ne (n : Nat) : frameLengthOf n ≠ 23 := by
  unfold frameLengthOf; omega

/-- R111: LENGTH is known before any position it decides. -/
theorem sampled_frameLength (d : Decoder) (p : Nat) (rx : List Bool) (b : Bool) :
    (d.sampled p rx b).length.map frameLengthOf = some p ↔ d.length.map frameLengthOf = some p := by
  by_cases h : p = 23
  · subst h
    have hno (x : Option Nat) : x.map frameLengthOf ≠ some 23 := by
      cases x with
      | none => exact fun he => nomatch he
      | some n => exact fun he => frameLengthOf_ne n (Option.some.inj he)
    exact ⟨fun he => absurd he (hno _), fun he => absurd he (hno _)⟩
  · rw [sampled_length_of_ne d p rx b h]

/-! ### The comparison -/

section
variable {l : Line} {p : Nat}

theorem compare_lost (hc : l.state = .sending ∧ l.arbitration = .contending) (ht : l.tx[p]? = some true) :
    l.compare (p + 1) .low = .lost := by
  unfold Line.compare
  rw [if_pos hc, Nat.add_sub_cancel, ht]

theorem compare_broken (hc : l.state = .sending ∧ l.arbitration = .contending) (ht : l.tx[p]? = some false) :
    l.compare (p + 1) .high = .broken := by
  unfold Line.compare
  rw [if_pos hc, Nat.add_sub_cancel, ht]

theorem compare_goesOn {data : Level} (h : ¬((l.state = .sending ∧ l.arbitration = .contending) ∧ l.tx[p]? = some (data == .low))) :
    l.compare (p + 1) data = .goesOn := by
  unfold Line.compare
  split
  · rename_i hc
    rw [Nat.add_sub_cancel]
    have ht : l.tx[p]? ≠ some (data == .low) := fun ht => h ⟨hc, ht⟩
    cases hx : l.tx[p]? with
    | none => rfl
    | some b =>
      have hb : b = !(data == .low) := Bool.eq_not_of_ne fun hb => ht (by rw [hx, hb])
      rw [hb]
      cases data <;> rfl
  · rfl

end

/-! ### The bit -/

/-- R92: the station with one more bit sampled, before the comparison decides what follows. -/
def State.bitTaken (s : State) (data : Level) : State :=
  let p := s.line.position.getD 0 + 1
  let d := s.decoder.sampled p (s.line.rx ++ [levelBit data]) (levelBit data)
  (s.withDecoder d).withLine (s.line.sampledAt p data d.length)

section
variable {s : State} {data : Level} {p : Nat} (hp : s.line.position = some p)
include hp

theorem bitTaken_decoder : (s.bitTaken data).decoder = s.decoder.sampled (p + 1) (s.line.rx ++ [levelBit data]) (levelBit data) := by
  unfold State.bitTaken; rw [hp]; rfl

theorem bitTaken_line : (s.bitTaken data).line = s.line.sampledAt (p + 1) data (s.bitTaken data).decoder.length := by
  rw [bitTaken_decoder hp]; unfold State.bitTaken; rw [hp]; rfl

theorem sampleFrameBit_eq : sampleFrameBit data s =
    if s.line.compare (p + 1) data = .broken ∨ ((s.bitTaken data).decoder.length.map frameLengthOf = some (p + 1) ∧ data = .high) then
      abortFrame .framing none (s.bitTaken data)
    else (s.bitTaken data).withWork { s.work with
      arbLost := s.line.compare (p + 1) data == .lost,
      evaluate := decide ((s.bitTaken data).decoder.length.map evalPosition = some (p + 1)) } := by
  rw [bitTaken_decoder hp]
  unfold sampleFrameBit State.bitTaken
  rw [hp]
  dsimp only [Option.getD_some]
  cases s.line.compare (p + 1) data with
  | broken => rfl
  | goesOn => simp only [reduceCtorEq, false_or]; rfl
  | lost => simp only [reduceCtorEq, false_or]; rfl

end

/-- R100: a rise is the next sample of the frame when the frame has bits left and this station does not hold PACE. -/
theorem onBitSample_awaited {s : State} {data : Level} {p : Nat} (hin : s.line.inFrame = true)
    (hst : s.line.stretch ≠ .holding ∨ s.line.answered = true) (hp : s.line.position = some p)
    (hlen : ∀ n, s.line.frameLength = some n → p < n) : onBitSample data s = sampleFrameBit data s := by
  have hoff : s.line.state ≠ .off := by
    rcases (inFrame_iff s.line).1 hin with hs | hs | hs <;> rw [hs] <;> exact LineState.noConfusion
  have hheld : (s.line.stretch == .holding && !s.line.answered) = false := by
    rcases hst with h | h
    · rw [beq_false_of_ne h, Bool.false_and]
    · rw [h, Bool.not_true, Bool.and_false]
  have hawaits : s.line.awaitsSample = true := by
    unfold Line.awaitsSample
    rw [hin, hheld, hp]
    cases hn : s.line.frameLength with
    | none => rfl
    | some n => exact decide_eq_true (hlen n hn)
  unfold onBitSample
  rw [if_neg hoff, if_pos hin, if_pos hawaits]

theorem sampled_sameBesidesLine (s : State) (data : Level) (arb eval : Bool) :
    sameBesidesLine s ((s.bitTaken data).withWork { s.work with arbLost := arb, evaluate := eval }) :=
  ⟨rfl, rfl, rfl, rfl, rfl, rfl, rfl, rfl, rfl, rfl, rfl⟩

/-! ### A lost arbitration -/

/-- R98: the station that lost, before its attempt is told. -/
def State.yielded (u : State) : State :=
  ((u.withWork { u.work with arbLost := false }).withLine { u.line with
    state := .receiving, role := .receiver, arbitration := .lost, tx := [], halfPeriod := .none, drivesPace := false,
    drivesData := false }).withDecoder { u.decoder with ownFrame := false }

theorem exec_arbitrationLost {u : State} (h : u.work.arbLost = true) : exec .arbitrationLost u =
    .next ((u.yielded.withSend (u.send.attempted .lost)).withPort (u.port.pushAll u.station (u.attemptNotices .lost))) := by
  refine congrArg Host.Outcome.next ((if_pos h).trans ?_)
  exact attemptOutcome_eq_attempted .lost u.yielded

/-- Settles O53: the verdict of the comparison and the end bit decide between going on, the loss and the abort. -/
theorem bitsAndArbitration : Obligations.BitsAndArbitration := by
  intro s data p h hin hst hp hlen
  have hexec : exec (.bitSample data) s = .next (sampleFrameBit data s) := by
    rw [exec_bitSample h, onBitSample_awaited hin hst hp hlen]
  have hframe := sampled_frameLength s.decoder (p + 1) (s.line.rx ++ [levelBit data]) (levelBit data)
  rw [← bitTaken_decoder hp] at hframe
  have hposition : (s.bitTaken data).line.position = some (p + 1) := by rw [bitTaken_line hp]; rfl
  refine ⟨fun hgoes hend => ?_, fun hc ht hd => ?_, fun hbreak hd => ?_, fun u hu => ⟨fun hslot => ?_, fun e rest hslot hq =>
    ⟨fun hr => ?_, fun hr => ?_⟩⟩⟩
  · rw [sampleFrameBit_eq hp, compare_goesOn hgoes, if_neg (by
      rw [hframe]; exact fun hc => hc.elim (fun hc => nomatch hc) hend)] at hexec
    refine ⟨_, hexec, sampled_sameBesidesLine .., hposition, rfl, rfl, rfl, rfl, rfl, rfl, rfl, fun n hn h23 => ?_⟩
    have hdlen : (s.bitTaken data).decoder.length = some n := by
      rw [bitTaken_decoder hp, sampled_length_of_ne _ _ _ _ (by omega), hn]
    have htake : (some (evalPosition n + 1) = some (p + 1)) ↔ p = 39 + 8 * n := by
      rw [Option.some.injEq]; unfold evalPosition; omega
    have hveto : (some (evalPosition n + 2) = some (p + 1)) ↔ p = 40 + 8 * n := by
      rw [Option.some.injEq]; unfold evalPosition; omega
    have heval : (some (evalPosition n) = some (p + 1)) ↔ p + 1 = 39 + 8 * n := by
      rw [Option.some.injEq]; unfold evalPosition; omega
    refine ⟨?_, ?_, ?_, ?_⟩
    · rw [State.withWork_line, bitTaken_line hp, hdlen]
      exact if_congr htake rfl rfl
    · rw [State.withWork_line, bitTaken_line hp, hdlen]
      exact if_congr hveto rfl rfl
    · rw [State.withWork_work, hdlen]
      exact decide_eq_true_iff.trans heval
    · rw [State.withWork_decoder, bitTaken_decoder hp, sampled_checkAcc _ _ _ _ hn (by omega)]
      exact if_congr (by omega) rfl rfl
  · subst hd
    rw [sampleFrameBit_eq hp, compare_lost hc ht, if_neg (fun hb => hb.elim (fun hb => nomatch hb) (fun hb => nomatch hb.2))] at hexec
    exact ⟨_, hexec, sampled_sameBesidesLine .., hposition, rfl⟩
  · subst hd
    have hbroken : s.line.compare (p + 1) .high = .broken ∨
        ((s.bitTaken .high).decoder.length.map frameLengthOf = some (p + 1) ∧ Level.high = .high) :=
      hbreak.imp (fun hb => compare_broken hb.1 hb.2) (fun hb => ⟨hframe.2 hb, rfl⟩)
    rw [sampleFrameBit_eq hp, if_pos hbroken] at hexec
    exact ⟨s.bitTaken .high, _, hexec, sampled_sameBesidesLine s .high s.work.arbLost s.work.evaluate, rfl, rfl, rfl, hposition,
      bitTaken_decoder hp, abortFrame_abortedTo (s := s.bitTaken .high) (by exact State.settled_work h) hin .framing none⟩
  · obtain ⟨hsend, hn⟩ := attempted_beacon hslot .lost
    rw [exec_arbitrationLost hu, hsend, hn]
    rfl
  · obtain ⟨hsend, hn⟩ := attempted_requeued (o := .lost) hslot hq (backToQueue_kept (e :=
      { e with losses := min 255 (e.losses + 1), inFlight := false }) hr)
    rw [exec_arbitrationLost hu, hsend, hn]
    rfl
  · obtain ⟨hsend, hn⟩ := attempted_ended (o := .lost) hslot hq (backToQueue_retired (e :=
      { e with losses := min 255 (e.losses + 1), inFlight := false }) hr)
    rw [issuedAfter_unaccepted (o := .purged) SendOutcome.noConfusion] at hsend
    rw [exec_arbitrationLost hu, hsend, hn]
    rfl

end Sys2Proof.Machine
end

section
/-! SUPPORT. The outcome of a BEACON frame at the line clock (R73, R74, R76 to R78, R86, R88), and the obligation on it. -/

namespace Sys2Proof.Machine

/-! ### The adoption of a beacon -/

/-- R88: the CLOCK notice of an adoption, when it reports one. -/
def adoptionNotices (cause : Option ClockCause) (c : Clock) (b : BeaconRecord) : List Notice :=
  cause.toList.map fun k => adoptionNotice k c b

/-- R76, R78, R88: the station that adopted a beacon, before it may enter ACTIVE. -/
def State.adopting (s : State) (cause : Option ClockCause) (b : BeaconRecord) : State :=
  ((s.withClock (s.clock.adopted b)).withWork { s.work with advance := steppedAdvance s.clock b }).withPort
    (s.port.pushAll s.station (adoptionNotices cause s.clock b))

theorem adoptBeacon_adopts {s : State} {b : BeaconRecord} {cause : Option ClockCause}
    (h : adoptionOf s.clock s.station.id b = .adopts cause) :
    adoptBeacon b s = if s.clock.state = .unsynced then enterActive .synced (s.adopting cause b) else s.adopting cause b := by
  unfold adoptBeacon
  rw [h]
  cases cause <;> rfl

theorem adoptBeacon_ignored {s : State} {b : BeaconRecord} (h : adoptionOf s.clock s.station.id b = .ignored) :
    adoptBeacon b s = s.withClock { s.clock with beacon := none } := by
  unfold adoptBeacon
  rw [h]

theorem enterActive_keepsNotices {cause : StationCause} {s : State} {m : Notice} (h : m ∈ s.port.notices) :
    m ∈ (enterActive cause s).port.notices := by
  unfold enterActive
  split
  · exact Port.mem_pushAll_of_mem (t := { s.station with state := .active })
      (ns := [.station (some s.station.state) .active cause none s.station.id s.clock.lineTime]) h
  · exact h

/-- R158: what an adoption leaves, whether or not the station enters ACTIVE with it. -/
theorem adoptBeacon_fields {s : State} {b : BeaconRecord} {cause : Option ClockCause}
    (h : adoptionOf s.clock s.station.id b = .adopts cause) :
    (adoptBeacon b s).clock = s.clock.adopted b ∧
      (adoptBeacon b s).work = { s.work with advance := steppedAdvance s.clock b } ∧
      (adoptBeacon b s).station = { s.station with
        state := if s.clock.state = .unsynced ∧ s.station.state = .listen then .active else s.station.state } ∧
      (s.clock.state ≠ .unsynced → (adoptBeacon b s).port = s.port.pushAll s.station (adoptionNotices cause s.clock b)) ∧
      ∀ m ∈ (s.port.pushAll s.station (adoptionNotices cause s.clock b)).notices, m ∈ (adoptBeacon b s).port.notices := by
  rw [adoptBeacon_adopts h]
  by_cases hu : s.clock.state = .unsynced
  · rw [if_pos hu]
    have htouched := touches_enterActive .synced (s.adopting cause b)
    refine ⟨htouched.clock (by simp), htouched.work (by simp), (enterActive_station _ _).trans ?_, fun hn => absurd hu hn,
      fun m hm => enterActive_keepsNotices hm⟩
    rw [hu]
    simp only [true_and]
    rfl
  · rw [if_neg hu, if_neg fun hc => hu hc.1]
    exact ⟨rfl, rfl, rfl, fun _ => rfl, fun m hm => hm⟩

/-! ### Which beacons are adopted -/

section
variable {c : Clock} {own : Byte} {b : BeaconRecord}

theorem adoptionOf_ignored (h : (∃ r, c.state = .following ∧ c.refId = some r ∧ r.toNat < b.sender.toNat) ∨
    (c.state = .reference ∧ own.toNat ≤ b.sender.toNat)) : adoptionOf c own b = .ignored := by
  unfold adoptionOf
  rcases h with ⟨r, hs, hr, hlt⟩ | ⟨hs, hle⟩
  · rw [hs, hr]
    dsimp only
    rw [if_neg (fun heq : b.sender = r => by rw [heq] at hlt; exact Nat.lt_irrefl _ hlt), if_neg (Nat.not_lt.2 (Nat.le_of_lt hlt))]
  · rw [hs]
    exact if_neg (Nat.not_lt.2 hle)

/-- R88: the cause an adoption has, by the clock it meets. -/
def adoptionCause (c : Clock) (b : BeaconRecord) : ClockCause :=
  if c.state = .unsynced ∨ c.state = .holdover then .adopted
  else if c.state = .reference then .yielded
  else if c.refId = some b.sender then .stepped else .newReference

/-- R76, R88: the beacons adopted, and the one adoption that CLOCK does not report. -/
theorem adoptionOf_adopts (h : c.state = .unsynced ∨ c.state = .holdover ∨
      (∃ r, c.state = .following ∧ c.refId = some r ∧ b.sender.toNat ≤ r.toNat) ∨
      (c.state = .reference ∧ b.sender.toNat < own.toNat)) :
    adoptionOf c own b = .adopts
      (if adoptionCause c b = .stepped ∧ stepsClock c.state (offsetOf c b) = false then none else some (adoptionCause c b)) := by
  unfold adoptionOf adoptionCause
  rcases h with hs | hs | ⟨r, hs, hr, hle⟩ | ⟨hs, hlt⟩
  · rw [hs]; rfl
  · rw [hs]; rfl
  · rw [hs, hr]
    dsimp only
    by_cases heq : b.sender = r
    · rw [if_pos heq, heq]
      simp only [reduceCtorEq, or_self, if_false, if_true, true_and]
      cases stepsClock .following (offsetOf c b) <;> rfl
    · have hlt : b.sender.toNat < r.toNat := Nat.lt_of_le_of_ne hle fun he => heq (BitVec.eq_of_toNat_eq he)
      have hcause : ¬(some r = some b.sender) := fun he => heq (Option.some.inj he).symm
      rw [if_neg heq, if_pos hlt]
      simp only [reduceCtorEq, or_self, if_false, hcause, false_and]
  · rw [hs]
    exact if_pos hlt

end

/-! ### The corrections of an adoption -/

/-- R76, R81: the clock record that follows a sender, its correction made. -/
def Clock.followed (c : Clock) (sender : Byte) : Clock :=
  { c with state := .following, refId := some sender, missCount := 0, holdoverCount := 0, window := .off, windowCount := 0,
           beacon := none }

section
variable {c : Clock} {b : BeaconRecord}

theorem adopted_eq_followed (c : Clock) (b : BeaconRecord) : c.adopted b =
    (if stepsClock c.state (offsetOf c b) = true then c.stepped (offsetOf c b) else c.slewBy (offsetOf c b)).followed b.sender := rfl

/-- R76, R81: what every adoption leaves in the clock record. -/
theorem adopted_fields (c : Clock) (b : BeaconRecord) :
    (c.adopted b).state = .following ∧ (c.adopted b).refId = some b.sender ∧ (c.adopted b).missCount = 0 ∧
      (c.adopted b).holdoverCount = 0 ∧ (c.adopted b).window = .off ∧ (c.adopted b).beacon = none ∧
      (c.adopted b).slewPhase = 0 ∧ (c.adopted b).beaconPeriod = c.beaconPeriod := by
  rw [adopted_eq_followed]
  split <;> exact ⟨rfl, rfl, rfl, rfl, rfl, rfl, rfl, rfl⟩

/-- R77: a small offset becomes the slew remainder. -/
theorem adopted_slews (h : stepsClock c.state (offsetOf c b) = false) :
    (c.adopted b).lineTime = c.lineTime ∧ (c.adopted b).slewRemainder = offsetOf c b ∧ (c.adopted b).nextDue = c.nextDue ∧
      steppedAdvance c b = none := by
  rw [adopted_eq_followed, if_neg (by rw [h]; exact Bool.false_ne_true)]
  exact ⟨rfl, rfl, rfl, if_neg fun hc => Bool.false_ne_true (h.symm.trans hc.1)⟩

/-- R78: line time steps by the offset, and a forward step is handed on. -/
theorem adopted_steps (h : stepsClock c.state (offsetOf c b) = true) :
    (c.adopted b).lineTime = c.lineTime + BitVec.ofInt 32 (offsetOf c b) ∧ (c.adopted b).slewRemainder = 0 ∧
      (c.adopted b).nextDue = c.nextDue.map (fun _ =>
        firstMultipleAfter c.beaconPeriod (c.lineTime + BitVec.ofInt 32 (offsetOf c b))) ∧
      steppedAdvance c b = if 0 < offsetOf c b then some ⟨c.lineTime, (offsetOf c b).toNat⟩ else none := by
  rw [adopted_eq_followed, if_pos h]
  exact ⟨rfl, rfl, rfl, if_congr (and_iff_right h) rfl rfl⟩

end

/-! ### The end of a BEACON frame -/

section
variable {s : State} (howner : s.decoder.owner = .lineClock)
include howner

theorem deliverToOwner_lineClock (o : Outcome) : deliverToOwner o s = lineClockOutcome o s := by
  unfold deliverToOwner
  rw [howner]

/-- R73, R86: the station's own beacon commits at the line clock and leaves the slot. -/
theorem ownBeacon_taken {take veto : Level} (hc : outcomeOf take veto = .commit) (hsends : s.line.sendsFrame = true)
    (hown : s.decoder.ownFrame = true) (hslot : s.send.slot = .inFlight) :
    s.outcomeTaken take veto = (ownBeaconCommits (s.withLine (s.line.frameOver .waitIdle))).withSend { s.send with slot := .empty } := by
  unfold State.outcomeTaken
  rw [hc, hsends]
  have hdeliver (x : State) (hx : x.decoder = s.decoder) : deliverToOwner .commit x = ownBeaconCommits x := by
    rw [deliverToOwner_lineClock (s := x) (by rw [hx]; exact howner)]
    exact if_pos (by rw [hx]; exact hown)
  have hattempt (x : State) (hx : x.send = s.send) :
      attemptOutcome .accepted x = x.withSend { s.send with slot := .empty } := by
    rw [← hx]
    exact if_pos (by rw [hx]; exact hslot)
  have hfirst : attemptOutcome .accepted (deliverToOwner .commit (s.withLine (s.line.frameOver .waitIdle))) =
      (ownBeaconCommits (s.withLine (s.line.frameOver .waitIdle))).withSend { s.send with slot := .empty } := by
    rw [hdeliver (s.withLine (s.line.frameOver .waitIdle)) rfl,
      hattempt (ownBeaconCommits (s.withLine (s.line.frameOver .waitIdle))) ((touches_ownBeaconCommits _).send (by simp))]
  refine (eitherOrder_agree _ _ _ ?_).trans hfirst
  change (attemptOutcome .accepted (deliverToOwner .commit _)).port = (deliverToOwner .commit (attemptOutcome .accepted _)).port
  rw [hfirst, hattempt (s.withLine (s.line.frameOver .waitIdle)) rfl, hdeliver _ (by rfl)]
  unfold ownBeaconCommits
  by_cases hr : s.clock.state = .reference
  · rw [if_pos (by exact hr), if_pos (by exact hr)]
  · rw [if_neg (by exact hr), if_neg (by exact hr)]; rfl

/-- R101: at a receiver the outcome is the owner's alone. -/
theorem beacon_taken {take veto : Level} (hsends : s.line.sendsFrame = false) :
    s.outcomeTaken take veto = lineClockOutcome (outcomeOf take veto) (s.withLine (s.line.frameOver .waitIdle)) := by
  unfold State.outcomeTaken
  rw [hsends]
  change eitherOrder (deliverToOwner (outcomeOf take veto)) (fun t => t) _ = _
  rw [eitherOrder_agree (deliverToOwner (outcomeOf take veto)) (fun t => t) _ rfl]
  exact deliverToOwner_lineClock (s := s.withLine (s.line.frameOver .waitIdle)) howner _

/-- R86: a void or unheard beacon empties the beacon record; the sender's leaves the slot. -/
theorem beacon_untaken {take veto : Level} (hc : outcomeOf take veto ≠ .commit)
    (hslot : s.line.sendsFrame = true → s.send.slot = .inFlight) : ∃ n,
    s.outcomeTaken take veto = (((s.withLine (s.line.frameOver .waitIdle)).withClock { s.clock with beacon := none }).withSend
      { s.send with slot := if s.line.sendsFrame = true then .empty else s.send.slot }).withOrder n := by
  obtain ⟨p, n, htells, he⟩ := outcome_delivered (o := outcomeOf take veto) (s := s.withLine (s.line.frameOver .waitIdle))
    s.line.sendsFrame (attemptOf (outcomeOf take veto)) fun h => absurd h hc
  have hown : (s.withLine (s.line.frameOver .waitIdle)).ownerNotices (outcomeOf take veto) = [] := by
    unfold State.ownerNotices
    rw [State.withLine_decoder, howner]
  have hfreed := freed_of_other (d := s.decoder) (by rw [howner]; exact FrameOwner.noConfusion) s.port
  have hclock : s.ownerClock = { s.clock with beacon := none } := (ownerClock_eq s).trans (if_pos howner)
  have hcues := ownerCues_of_other (s := s) (by rw [howner]; exact FrameOwner.noConfusion) (outcomeOf take veto)
  have hsend : s.send.afterFrame s.line.sendsFrame (attemptOf (outcomeOf take veto)) =
      { s.send with slot := if s.line.sendsFrame = true then .empty else s.send.slot } ∧
      (s.withLine (s.line.frameOver .waitIdle)).frameNotices s.line.sendsFrame (attemptOf (outcomeOf take veto)) = [] := by
    cases hs : s.line.sendsFrame with
    | false => exact ⟨rfl, rfl⟩
    | true => exact attempted_beacon (s := s.withLine (s.line.frameOver .waitIdle)) (hslot hs) _
  rw [hown] at htells
  have hport : p = s.port := (htells.of_noAttempt hsend.2).trans hfreed
  refine ⟨n, he.trans ?_⟩
  change (s.withLine (s.line.frameOver .waitIdle)).decidedAs (s.ownerCues _) s.ownerClock (s.send.afterFrame _ _) p n = _
  rw [hport, hclock, hcues, hsend.1]
  rfl

end

end Sys2Proof.Machine
end

section
/-! SUPPORT. The obligation on the end of a BEACON frame. -/

namespace Sys2Proof.Machine

/-- R101, R121: at an end condition with nothing waiting, the outcome as owner and sender take it, and the decoder emptied. -/
theorem frame_ends_taken {s : State} {take veto : Level} (h : s.atEnd take veto) (hans : s.line.answered = true)
    (hdup : s.station.dupPending = false) (hleave : s.station.leavePending = false) :
    exec .endCondition s = .next (((s.withLine s.line.seeBothHigh).outcomeTaken take veto).withDecoder .reset) := by
  obtain ⟨x, hx⟩ := outcomeTaken_onlyState take veto (s.withLine s.line.seeBothHigh)
  rw [exec_endCondition h.1, onEndCondition_atEnd h, if_pos hans, deliverOutcome_eq_taken,
    closeFrame_of_none (by rw [hx]; exact hdup) (by rw [hx]; exact hleave)]

/-- R86, R101: the station that meets another's committed beacon: the frame is over, and a QUEUED slot yields to a lower ID. -/
def State.beaconMet (s : State) (b : BeaconRecord) : State :=
  (s.withLine (s.line.seeBothHigh.frameOver .waitIdle)).withSend { s.send with slot :=
    if s.send.slot = .queued ∧ b.sender.toNat < s.station.id.toNat then .empty else s.send.slot }

theorem State.touches_beaconMet (s : State) (b : BeaconRecord) : Touches [.line, .send] s (s.beaconMet b) :=
  (Touches.withLine s _).andThen (.withSend _ _)

section
variable {s : State} {b : BeaconRecord}

theorem yieldSlot_eq (sender : Byte) (s : State) : yieldSlot sender s = s.withSend { s.send with slot :=
    if s.send.slot = .queued ∧ sender.toNat < s.station.id.toNat then .empty else s.send.slot } := by
  unfold yieldSlot
  split
  · rfl
  · rfl

/-- R86: the slot yields whether or not the beacon is adopted, and the adoption does not see it. -/
theorem lineClockOutcome_received (hown : s.decoder.ownFrame = false) (hb : s.clock.beacon = some b) :
    lineClockOutcome .commit s = adoptBeacon b (s.withSend { s.send with slot :=
      if s.send.slot = .queued ∧ b.sender.toNat < s.station.id.toNat then .empty else s.send.slot }) := by
  unfold lineClockOutcome
  dsimp only
  rw [if_neg (by rw [hown]; exact Bool.false_ne_true), hb]
  dsimp only
  rw [yieldSlot_eq]

end

theorem ownBeaconCommits_reference {s : State} (h : s.clock.state = .reference) : ownBeaconCommits s = s := if_pos h

/-- R73, R88: the clock becomes REFERENCE with its own ID, and reports it. -/
theorem ownBeaconCommits_other {s : State} (h : s.clock.state ≠ .reference) : ownBeaconCommits s =
    (s.withClock { s.clock with
      state := .reference, refId := some s.station.id, slewRemainder := 0, slewPhase := 0, missCount := 0, holdoverCount := 0,
      window := .off, windowCount := 0 }).withPort (s.port.push (s.station.enables .clock)
        (.clock .ownBeacon s.clock.state .reference (some s.station.id) 0 false .reference s.clock.lineTime)) := if_neg h

/-- Settles O57: the station's own beacon, another's that is not committed, and another's that is, each by the lemma on it. -/
theorem beaconFrameEndsInItsOutcome : Obligations.BeaconFrameEndsInItsOutcome := by
  intro s take veto h hans howner hdup hleave
  have hexec := frame_ends_taken h hans hdup hleave
  have hcommit := outcomeOf_commit_iff take veto
  dsimp only
  refine ⟨fun hrole harb hown hslot => ?_, fun hrole hown => ⟨fun hc => ?_, fun b hc hb => ?_⟩⟩
  · have hsends : s.line.seeBothHigh.sendsFrame = true := sendsFrame_won hrole harb
    by_cases hc : take = .low ∧ veto = .high
    · rw [ownBeacon_taken (s := s.withLine s.line.seeBothHigh) howner (hcommit.2 hc) hsends hown hslot] at hexec
      have howned := touches_ownBeaconCommits (s.withLine (s.line.seeBothHigh.frameOver .waitIdle))
      have htouched := (((Touches.withLine s _).andThen howned).andThen (.withSend _ { s.send with slot := .empty })).andThen
        (.withDecoder _ .reset)
      refine ⟨_, hexec, ⟨howned.line (by simp), rfl, htouched.cues (by simp), htouched.points (by simp), htouched.inputs (by simp),
        htouched.peers (by simp), htouched.pins (by simp)⟩, htouched.station (by simp), htouched.work (by simp), rfl,
        fun _ href => ?_, fun _ href => ?_, fun hno => absurd hc hno⟩
      · have heq := ownBeaconCommits_reference (s := s.withLine (s.line.seeBothHigh.frameOver .waitIdle)) href
        exact ⟨(congrArg State.clock heq).trans rfl, (congrArg State.port heq).trans rfl⟩
      · have heq := ownBeaconCommits_other (s := s.withLine (s.line.seeBothHigh.frameOver .waitIdle)) href
        exact ⟨(congrArg State.clock heq).trans rfl, (congrArg State.port heq).trans rfl⟩
    · obtain ⟨n, he⟩ := beacon_untaken (s := s.withLine s.line.seeBothHigh) howner (mt hcommit.1 hc) fun _ => hslot
      rw [he] at hexec
      exact ⟨_, hexec, ⟨by simp, by simp, by simp, by simp, by simp, by simp, by simp⟩, by simp, by simp, by
        change { s.send with slot := if s.line.seeBothHigh.sendsFrame = true then .empty else s.send.slot } = _
        rw [if_pos hsends], fun hyes => absurd hyes hc, fun hyes => absurd hyes hc, fun _ => ⟨rfl, by simp⟩⟩
  · have hsends : s.line.seeBothHigh.sendsFrame = false := sendsFrame_receiver hrole
    obtain ⟨n, he⟩ := beacon_untaken (s := s.withLine s.line.seeBothHigh) howner (mt hcommit.1 hc) fun hs => by
      rw [State.withLine_line, hsends] at hs; cases hs
    rw [he] at hexec
    exact ⟨_, hexec, ⟨by simp, by simp, by simp, by simp, by simp, by simp, by simp⟩, by simp, by simp, by
      change { s.send with slot := if s.line.seeBothHigh.sendsFrame = true then .empty else s.send.slot } = _
      rw [hsends]; rfl, rfl, by simp⟩
  · have hsends : s.line.seeBothHigh.sendsFrame = false := sendsFrame_receiver hrole
    rw [beacon_taken (s := s.withLine s.line.seeBothHigh) howner hsends, hcommit.2 hc] at hexec
    have hreceived := lineClockOutcome_received (s := s.withLine (s.line.seeBothHigh.frameOver .waitIdle)) hown hb
    have hexec : exec .endCondition s = .next ((adoptBeacon b (s.beaconMet b)).withDecoder .reset) :=
      hexec.trans (congrArg (fun t => Host.Outcome.next (t.withDecoder Decoder.reset)) hreceived)
    have hadopted := touches_adoptBeacon b (s.beaconMet b)
    have hignores := adoptBeacon_ignored (s := s.beaconMet b) (b := b)
    have hadopts (cause : Option ClockCause) := adoptBeacon_fields (s := s.beaconMet b) (b := b) (cause := cause)
    generalize adoptBeacon b (s.beaconMet b) = a at hexec hadopted hignores hadopts
    have hblocks := s.touches_beaconMet b
    have htouched := hblocks.andThen hadopted
    refine ⟨_, hexec, ⟨hadopted.line (by simp), rfl, htouched.cues (by simp), htouched.points (by simp), htouched.inputs (by simp),
      htouched.peers (by simp), htouched.pins (by simp)⟩, hadopted.send (by simp), fun hcase => ?_, fun hcase => ?_⟩
    · have heq := hignores (adoptionOf_ignored hcase)
      rw [heq]
      exact ⟨rfl, hblocks.station (by simp), hblocks.work (by simp), hblocks.port (by simp)⟩
    · obtain ⟨hclock, hwork, hstation, hport, hnotices⟩ := hadopts _ (adoptionOf_adopts hcase)
      have hclock : a.clock = s.clock.adopted b := hclock
      have hwork : a.work = { s.work with advance := steppedAdvance s.clock b } := hwork
      simp only [State.withDecoder_clock, State.withDecoder_station, State.withDecoder_work, State.withDecoder_port, hclock, hwork]
      obtain ⟨h1, h2, h3, h4, h5, h6, h7, h8⟩ := adopted_fields s.clock b
      refine ⟨h1, h2, h3, h4, h5, h6, h7, h8, hstation, fun hsteps => ?_, fun hsteps => ?_, fun cause hcause => ⟨fun hk hsteps => ?_,
        fun hk hroom hon => ?_⟩⟩
      · obtain ⟨htime, hslew, hdue, hadvance⟩ := adopted_slews (c := s.clock) (b := b) hsteps
        exact ⟨htime, hslew, hdue, by rw [hadvance, State.settled_work h.1]; rfl⟩
      · obtain ⟨htime, hslew, hdue, hadvance⟩ := adopted_steps (c := s.clock) (b := b) hsteps
        refine ⟨htime, hslew, by rw [hadvance]; rfl, fun hnext hperiod => ?_⟩
        obtain ⟨d, hd⟩ := Option.ne_none_iff_exists'.1 hnext
        rw [hdue, hd, htime]
        exact ⟨_, rfl, isNextDue_firstMultipleAfter hperiod _⟩
      · rw [hcause] at hk
        have hno := hport (fun hu => by
          have hu : s.clock.state = .unsynced := hu
          rw [if_pos (.inl hu)] at hk; cases hk)
        rw [if_pos ⟨hk, hsteps⟩] at hno
        exact hno
      · refine hnotices _ ?_
        rw [if_neg (by
          rw [hcause] at hk
          exact fun hc => hk.elim (fun hk => hk hc.1) (fun hk => Bool.false_ne_true (hc.2.symm.trans hk)))]
        rw [hcause]
        exact Port.head_mem_pushAll (ns := []) hroom hon

end Sys2Proof.Machine
end

section
/-! SUPPORT. Frames as runs of bits (Formats, R111 to R113, R181): what the fields of a frame spell, and the decoder after each of its bits. -/

namespace Sys2Proof.Machine

/-! ### Bits and numbers -/

theorem foldl_bits (bs : List Bool) (acc : Nat) :
    bs.foldl (fun acc b => 2 * acc + b.toNat) acc = acc * 2 ^ bs.length + natOfBits bs := by
  induction bs generalizing acc with
  | nil => simp [natOfBits]
  | cons b bs ih =>
    have hacc := ih (2 * acc + b.toNat)
    have hzero := ih (2 * 0 + b.toNat)
    rw [natOfBits, List.foldl_cons, List.foldl_cons, hacc, hzero, List.length_cons, Nat.pow_succ]
    ring

theorem natOfBits_cons (b : Bool) (bs : List Bool) : natOfBits (b :: bs) = b.toNat * 2 ^ bs.length + natOfBits bs := by
  rw [natOfBits, List.foldl_cons, foldl_bits, Nat.mul_zero, Nat.zero_add]

/-- The most significant bit first, `n` bits of a number spell it below `2 ^ n`. -/
theorem natOfBits_testBits (x n : Nat) : natOfBits ((List.range n).map fun i => x.testBit (n - 1 - i)) = x % 2 ^ n := by
  induction n with
  | zero => simp [natOfBits, Nat.mod_one]
  | succ n ih =>
    rw [List.range_succ_eq_map, List.map_cons, natOfBits_cons, List.map_map, List.length_map, List.length_range,
      Nat.mod_pow_succ]
    have hrest : (List.range n).map ((fun i => x.testBit (n + 1 - 1 - i)) ∘ Nat.succ) =
        (List.range n).map fun i => x.testBit (n - 1 - i) :=
      List.map_congr_left fun i _ => congrArg x.testBit (by simp only [Nat.succ_eq_add_one]; omega)
    rw [hrest, ih, Nat.add_sub_cancel, Nat.sub_zero, Nat.toNat_testBit]
    ring

@[simp] theorem length_bitsOf {n : Nat} (v : BitVec n) : (bitsOf v).length = n := by
  unfold bitsOf
  rw [List.length_map, List.length_range]

/-- A field is read back as it was sent. -/
@[simp] theorem natOfBits_bitsOf {n : Nat} (v : BitVec n) : natOfBits (bitsOf v) = v.toNat := by
  have hbits : bitsOf v = (List.range n).map fun i => v.toNat.testBit (n - 1 - i) :=
    List.map_congr_left fun i hi => by
      have hlt : decide (i < n) = true := decide_eq_true (List.mem_range.1 hi)
      rw [BitVec.getMsbD, hlt, Bool.true_and]
      rfl
  rw [hbits, natOfBits_testBits, Nat.mod_eq_of_lt v.isLt]

theorem length_flatMap_bitsOf (body : List Byte) : (body.flatMap bitsOf).length = 8 * body.length := by
  induction body with
  | nil => rfl
  | cons b bs ih =>
    rw [List.flatMap_cons, List.length_append, ih, length_bitsOf, List.length_cons]
    omega

/-- The bytes of a body are read back as they were sent. -/
theorem bytesOfBits_flatMap (body : List Byte) (tail : List Bool) :
    bytesOfBits body.length (body.flatMap bitsOf ++ tail) = body := by
  induction body with
  | nil => rfl
  | cons b bs ih =>
    have htake : (bitsOf b ++ (bs.flatMap bitsOf ++ tail)).take 8 = bitsOf b := List.take_left' (length_bitsOf b)
    have hdrop : (bitsOf b ++ (bs.flatMap bitsOf ++ tail)).drop 8 = bs.flatMap bitsOf ++ tail := List.drop_left' (length_bitsOf b)
    rw [List.flatMap_cons, List.append_assoc, List.length_cons, bytesOfBits, htake, hdrop, ih, natOfBits_bitsOf,
      BitVec.ofNat_toNat, BitVec.setWidth_eq]

/-! ### The fields of a frame -/

/-- A field of a run of bits, by the bits before it. -/
theorem field_at {before field after : List Bool} {n m : Nat} (hn : before.length = n) (hm : field.length = m) :
    ((before ++ (field ++ after)).drop n).take m = field := by
  rw [List.drop_left' hn, List.take_left' hm]

/-- A station ID fits the six bits of SENDER. -/
theorem sender_field {sender : Byte} (h : sender.toNat < 64) : BitVec.ofNat 8 (sender.extractLsb' 0 6).toNat = sender := by
  apply BitVec.eq_of_toNat_eq
  rw [BitVec.toNat_ofNat, BitVec.extractLsb'_toNat, Nat.shiftRight_zero]
  omega

theorem length_field {n : Nat} (h : n < 32) : (BitVec.ofNat 5 n).toNat = n := by
  rw [BitVec.toNat_ofNat]
  omega

end Sys2Proof.Machine
end

section
/-! SUPPORT. The decoder over a whole frame (R111 to R113), and the obligation that a frame is received as it was sent. -/

namespace Sys2Proof.Machine

/-! ### One sampled bit -/

/-- R112: position `p` is fed to the accumulator. -/
def Decoder.feeds (d : Decoder) (p : Nat) : Bool := decide (p ≤ 23) || d.length.elim false fun n => decide (p ≤ 23 + 8 * n)

/-- R111: the field that position `p` completes. -/
def Decoder.read (d : Decoder) (p : Nat) (rx : List Bool) (b : Bool) : Decoder :=
  if p = 3 then
    { d with kind := some (BitVec.ofNat 3 (natOfBits (rx.take 3))), owner := ownerOfKind (BitVec.ofNat 3 (natOfBits (rx.take 3))) }
  else if p = 9 then { d with sender := some (BitVec.ofNat 8 (natOfBits ((rx.drop 3).take 6))) }
  else if p = 10 then { d with scopeMode := some (if b then .station else .group) }
  else if p = 18 then { d with scopeNumber := some (BitVec.ofNat 8 (natOfBits ((rx.drop 10).take 8))) }
  else if p = 23 then { d with length := some (natOfBits ((rx.drop 18).take 5)) }
  else d

theorem sampled_eq_read (d : Decoder) (p : Nat) (rx : List Bool) (b : Bool) :
    d.sampled p rx b = ({ d with checkAcc := if d.feeds p then checkFeed d.checkAcc b else d.checkAcc } : Decoder).read p rx b := by
  obtain ⟨kind, owner, sender, mode, number, length, acc, check, header, addressed, own, foreign, answer⟩ := d
  cases length <;> rfl

/-! ### The decoder after `k` bits -/

/-- R111: the decoder that has sampled the first `k` of these bits, of a frame with `n` bytes of body; its accumulator apart. -/
def heardFields (bits : List Bool) (n k : Nat) (acc : Word16) : Decoder :=
  { Decoder.reset with
    kind := if 3 ≤ k then some (BitVec.ofNat 3 (natOfBits (bits.take 3))) else none,
    owner := if 3 ≤ k then ownerOfKind (BitVec.ofNat 3 (natOfBits (bits.take 3))) else .none,
    sender := if 9 ≤ k then some (BitVec.ofNat 8 (natOfBits ((bits.drop 3).take 6))) else none,
    scopeMode := if 10 ≤ k then some (if bits.getD 9 false then .station else .group) else none,
    scopeNumber := if 18 ≤ k then some (BitVec.ofNat 8 (natOfBits ((bits.drop 10).take 8))) else none,
    length := if 23 ≤ k then some n else none, checkAcc := acc }

/-- R111, R112: with the check over the bits of header and body so far. -/
def heardDecoder (bits : List Bool) (n k : Nat) : Decoder := heardFields bits n k (checkOf (bits.take (min k (23 + 8 * n))))

theorem heardDecoder_length (bits : List Bool) (n k : Nat) : (heardDecoder bits n k).length = if 23 ≤ k then some n else none := rfl

/-- R111: past the header every field is complete. -/
theorem heardDecoder_fields (bits : List Bool) (n k : Nat) (h : 23 ≤ k) :
    (heardDecoder bits n k).kind = some (BitVec.ofNat 3 (natOfBits (bits.take 3))) ∧
      (heardDecoder bits n k).owner = ownerOfKind (BitVec.ofNat 3 (natOfBits (bits.take 3))) ∧
      (heardDecoder bits n k).sender = some (BitVec.ofNat 8 (natOfBits ((bits.drop 3).take 6))) ∧
      (heardDecoder bits n k).scope =
        ⟨if bits.getD 9 false then .station else .group, BitVec.ofNat 8 (natOfBits ((bits.drop 10).take 8))⟩ ∧
      (heardDecoder bits n k).length = some n := by
  have h3 : 3 ≤ k := by omega
  have h9 : 9 ≤ k := by omega
  have h10 : 10 ≤ k := by omega
  have h18 : 18 ≤ k := by omega
  simp only [heardDecoder, heardFields, Decoder.scope, h, h3, h9, h10, h18, if_true, Option.getD_some, and_self]

section
variable {bits : List Bool} {n k : Nat}

/-- R181: one bit more is fed up to the end of the body. -/
theorem checkOf_take_succ {m : Nat} (hk : k < bits.length) : checkOf (bits.take (min (k + 1) m)) =
    if k + 1 ≤ m then checkFeed (checkOf (bits.take (min k m))) bits[k] else checkOf (bits.take (min k m)) := by
  by_cases hm : k + 1 ≤ m
  · rw [if_pos hm, Nat.min_eq_left hm, Nat.min_eq_left (Nat.le_of_succ_le hm), List.take_succ_eq_append_getElem hk, checkOf,
      List.foldl_append]
    rfl
  · rw [if_neg hm, Nat.min_eq_right (by omega), Nat.min_eq_right (by omega)]

/-- A field is complete once its last bit is taken. -/
theorem field_taken (bits : List Bool) (a m : Nat) : ((bits.take (a + m)).drop a).take m = (bits.drop a).take m := by
  rw [List.drop_take, List.take_take, Nat.add_sub_cancel_left, Nat.min_self]

/-- R111: each position completes the field that ends there. -/
theorem heardFields_read (hn : natOfBits ((bits.drop 18).take 5) = n) (hk : k < bits.length) (acc : Word16) :
    (heardFields bits n k acc).read (k + 1) (bits.take (k + 1)) bits[k] = heardFields bits n (k + 1) acc := by
  unfold Decoder.read
  by_cases h3 : k + 1 = 3
  · obtain rfl : k = 2 := by omega
    simp [heardFields, List.take_take]
  by_cases h9 : k + 1 = 9
  · obtain rfl : k = 8 := by omega
    simp [heardFields, field_taken bits 3 6]
  by_cases h10 : k + 1 = 10
  · obtain rfl : k = 9 := by omega
    simp [heardFields, hk]
  by_cases h18 : k + 1 = 18
  · obtain rfl : k = 17 := by omega
    simp [heardFields, field_taken bits 10 8]
  by_cases h23 : k + 1 = 23
  · obtain rfl : k = 22 := by omega
    simp [heardFields, field_taken bits 18 5, hn]
  · have hsame (m : Nat) (hm : k + 1 ≠ m) : (m ≤ k + 1) = (m ≤ k) := propext ⟨fun h => by omega, fun h => by omega⟩
    rw [if_neg h3, if_neg h9, if_neg h10, if_neg h18, if_neg h23]
    simp only [heardFields, hsame 3 h3, hsame 9 h9, hsame 10 h10, hsame 18 h18, hsame 23 h23]

theorem heardDecoder_sampled (hn : natOfBits ((bits.drop 18).take 5) = n) (hk : k < bits.length) :
    (heardDecoder bits n k).sampled (k + 1) (bits.take (k + 1)) bits[k] = heardDecoder bits n (k + 1) := by
  have hfeeds : (heardDecoder bits n k).feeds (k + 1) = decide (k + 1 ≤ 23 + 8 * n) := by
    unfold Decoder.feeds
    rw [heardDecoder_length]
    by_cases h23 : 23 ≤ k
    · have hlate : decide (k + 1 ≤ 23) = false := decide_eq_false (by omega)
      rw [if_pos h23, hlate, Bool.false_or]
      rfl
    · rw [decide_eq_true (by omega : k + 1 ≤ 23), decide_eq_true (by omega : k + 1 ≤ 23 + 8 * n), Bool.true_or]
  rw [sampled_eq_read, hfeeds]
  refine Eq.trans (heardFields_read hn hk _) ?_
  unfold heardDecoder
  rw [checkOf_take_succ hk]
  congr 1
  exact if_congr decide_eq_true_iff rfl rfl

end

/-! ### A receiver over a run of bits -/

/-- R92, R111: a receiver that has heard the first `k` bits of a frame with `n` bytes of body, up to its evaluation point. -/
structure State.HasHeard (bits : List Bool) (n k : Nat) (t : State) : Prop where
  work : t.work = { Work.none with evaluate := decide (k = 39 + 8 * n) }
  state : t.line.state = .receiving
  position : t.line.position = some k
  buffer : t.line.rx = bits.take k
  stretch : t.line.stretch = .none
  frameLength : t.line.frameLength = if 23 ≤ k then some (42 + 8 * n) else none
  decoder : t.decoder = heardDecoder bits n k

theorem levelBit_bitLevel (b : Bool) : levelBit (bitLevel b) = b := by cases b <;> rfl

theorem settled_of_line {t : State} (hw : t.work = Work.none) (hl : t.line.state ≠ .idle) : t.settled = true := by
  have hmay : t.mayOffer = false := by rw [State.mayOffer, beq_false_of_ne hl, Bool.and_false]
  unfold State.settled State.headOfferDue State.beaconOfferDue
  rw [hmay, hw]
  rfl

theorem hasHeard_zero {s : State} (h : s.hearing) (bits : List Bool) (n : Nat) : s.HasHeard bits n 0 := by
  obtain ⟨hwork, hstate, hpos, hlen, hrx, hstretch, hdec⟩ := h
  have hzero : decide (0 = 39 + 8 * n) = false := decide_eq_false (by omega)
  refine ⟨by rw [hwork, hzero]; rfl, hstate, hpos, hrx, hstretch, hlen, hdec.trans ?_⟩
  unfold heardDecoder
  rw [Nat.zero_min]
  rfl

section
variable {bits : List Bool} {n k : Nat} {t : State}

/-- R111: no bit before the end bit is the frame's last. -/
theorem heardDecoder_notLast (hk : k < 39 + 8 * n) : (heardDecoder bits n (k + 1)).length.map frameLengthOf ≠ some (k + 1) := by
  rw [heardDecoder_length]
  split
  · exact fun he => by
      have : 42 + 8 * n = k + 1 := Option.some.inj he
      omega
  · exact fun he => nomatch he

theorem heardDecoder_evaluates (k n : Nat) :
    decide ((heardDecoder bits n (k + 1)).length.map evalPosition = some (k + 1)) = decide (k + 1 = 39 + 8 * n) := by
  rw [heardDecoder_length]
  by_cases h : 23 ≤ k + 1
  · rw [if_pos h]
    exact decide_eq_decide.2 ⟨fun he => (Option.some.inj he).symm, fun he => by rw [he]; rfl⟩
  · rw [if_neg h]
    exact (decide_eq_false fun he => nomatch he).trans (decide_eq_false (by omega)).symm

/-- R92: below the evaluation point every bit enters the buffer. -/
theorem sampledAt_buffer (l : Line) (p : Nat) (data : Level) (length : Option Nat) (h : ∀ m, length = some m → p ≤ evalPosition m) :
    (l.sampledAt p data length).rx = l.rx ++ [levelBit data] := by
  cases length with
  | none => rfl
  | some m => exact if_pos (h m rfl)

theorem State.HasHeard.next (h : t.HasHeard bits n k) (hn : natOfBits ((bits.drop 18).take 5) = n) (hk : k < bits.length)
    (hlt : k < 39 + 8 * n) : (t.after (.bitSample (bitLevel bits[k]))).HasHeard bits n (k + 1) := by
  have hwork : t.work = Work.none := by rw [h.work, decide_eq_false (Nat.ne_of_lt hlt)]; rfl
  have hin : t.line.inFrame = true := (inFrame_iff t.line).2 (.inr (.inl h.state))
  have hdec : (t.bitTaken (bitLevel bits[k])).decoder = heardDecoder bits n (k + 1) := by
    rw [bitTaken_decoder h.position, levelBit_bitLevel, h.buffer, h.decoder, ← heardDecoder_sampled hn hk,
      List.take_succ_eq_append_getElem hk]
  have hline := bitTaken_line (data := bitLevel bits[k]) h.position
  rw [hdec] at hline
  have hexec : t.after (.bitSample (bitLevel bits[k])) = (t.bitTaken (bitLevel bits[k])).withWork
      { t.work with arbLost := false, evaluate := decide (k + 1 = 39 + 8 * n) } := by
    refine after_of_exec ?_
    have hgoes : t.line.compare (k + 1) (bitLevel bits[k]) = .goesOn :=
      compare_goesOn fun hc => by rw [h.state] at hc; cases hc.1.1
    rw [exec_bitSample (settled_of_line hwork (by rw [h.state]; exact LineState.noConfusion)),
      onBitSample_awaited hin (.inl (by rw [h.stretch]; exact Stretch.noConfusion)) h.position (fun m hm => by
        rw [h.frameLength] at hm
        split at hm
        · have : 42 + 8 * n = m := Option.some.inj hm
          omega
        · cases hm),
      sampleFrameBit_eq h.position, hgoes, hdec, heardDecoder_evaluates k n,
      if_neg (fun hc => hc.elim (fun hc => nomatch hc) (fun hc => heardDecoder_notLast hlt hc.1))]
    rfl
  rw [hexec]
  refine ⟨by rw [hwork]; rfl, ?_, ?_, ?_, ?_, ?_, hdec⟩
  · rw [State.withWork_line, hline]; exact h.state
  · rw [State.withWork_line, hline]; rfl
  · rw [State.withWork_line, hline, sampledAt_buffer, h.buffer, levelBit_bitLevel, List.take_succ_eq_append_getElem hk]
    intro m hm
    rw [heardDecoder_length] at hm
    split at hm
    · have : n = m := Option.some.inj hm
      unfold evalPosition
      omega
    · cases hm
  · rw [State.withWork_line, hline]
    exact congrArg Stretch.letGo h.stretch
  · rw [State.withWork_line, hline]
    change (heardDecoder bits n (k + 1)).length.map frameLengthOf = _
    rw [heardDecoder_length]
    split <;> rfl

end

/-- R92: over a whole frame up to its last check bit. -/
theorem hasHeard_all {s : State} {bits : List Bool} {n : Nat} (h : s.hearing) (hn : natOfBits ((bits.drop 18).take 5) = n)
    (hlen : bits.length = 39 + 8 * n) (k : Nat) (hk : k ≤ bits.length) :
    (s.afterAll ((bits.take k).map fun b => .bitSample (bitLevel b))).HasHeard bits n k := by
  induction k with
  | zero => exact hasHeard_zero h bits n
  | succ k ih =>
    have hlt : k < bits.length := hk
    have hnext := (ih (Nat.le_of_lt hlt)).next hn hlt (by omega)
    rw [List.take_succ_eq_append_getElem hlt, List.map_append, State.afterAll, List.foldl_append]
    exact hnext

/-! ### The fields of a frame in their places -/

section
variable (kind : BitVec 3) (sender : Byte) (scope : Scope) (body : List Byte)

/-- Formats: the fields of a frame, one after another. -/
theorem frameBits_eq : frameBits kind sender scope body =
    bitsOf kind ++ (bitsOf (sender.extractLsb' 0 6) ++ (bitsOf (scope.mode.code.extractLsb' 0 1) ++ (bitsOf scope.number ++
      (bitsOf (BitVec.ofNat 5 body.length) ++ (body.flatMap bitsOf ++
        bitsOf (checkOf (frameDataBits kind sender scope body))))))) := by
  unfold frameBits
  generalize bitsOf (checkOf (frameDataBits kind sender scope body)) = check
  unfold frameDataBits
  simp only [List.append_assoc]

theorem length_frameBits : (frameBits kind sender scope body).length = 39 + 8 * body.length := by
  rw [frameBits_eq]
  simp only [List.length_append, length_bitsOf, length_flatMap_bitsOf]
  omega

theorem frameBits_kind : (frameBits kind sender scope body).take 3 = bitsOf kind := by
  rw [frameBits_eq]
  exact List.take_left' (length_bitsOf kind)

theorem frameBits_sender : ((frameBits kind sender scope body).drop 3).take 6 = bitsOf (sender.extractLsb' 0 6) := by
  rw [frameBits_eq]
  exact field_at (length_bitsOf kind) (length_bitsOf _)

theorem frameBits_number : ((frameBits kind sender scope body).drop 10).take 8 = bitsOf scope.number := by
  rw [frameBits_eq, ← List.append_assoc, ← List.append_assoc]
  exact field_at (by simp only [List.length_append, length_bitsOf]) (length_bitsOf _)

theorem frameBits_length : ((frameBits kind sender scope body).drop 18).take 5 = bitsOf (BitVec.ofNat 5 body.length) := by
  rw [frameBits_eq, ← List.append_assoc, ← List.append_assoc, ← List.append_assoc]
  exact field_at (by simp only [List.length_append, length_bitsOf]) (length_bitsOf _)

theorem frameBits_body : (frameBits kind sender scope body).drop 23 =
    body.flatMap bitsOf ++ bitsOf (checkOf (frameDataBits kind sender scope body)) := by
  rw [frameBits_eq, ← List.append_assoc, ← List.append_assoc, ← List.append_assoc, ← List.append_assoc]
  exact List.drop_left' (by simp only [List.length_append, length_bitsOf])

theorem length_frameDataBits : (frameDataBits kind sender scope body).length = 23 + 8 * body.length := by
  unfold frameDataBits
  simp only [List.length_append, length_bitsOf, length_flatMap_bitsOf]

theorem frameBits_data : (frameBits kind sender scope body).take (23 + 8 * body.length) = frameDataBits kind sender scope body :=
  List.take_left' (length_frameDataBits ..)

theorem frameBits_check : (frameBits kind sender scope body).drop (23 + 8 * body.length) =
    bitsOf (checkOf (frameDataBits kind sender scope body)) :=
  List.drop_left' (length_frameDataBits ..)

/-- Formats: the one bit of MODE is set for a station. -/
theorem frameBits_mode : (if (frameBits kind sender scope body).getD 9 false then ScopeMode.station else .group) = scope.mode := by
  rw [frameBits_eq, ← List.append_assoc, List.getD_eq_getElem?_getD,
    List.getElem?_append_right (by simp only [List.length_append, length_bitsOf, Nat.reduceAdd, Nat.le_refl])]
  simp only [List.length_append, length_bitsOf, Nat.reduceAdd, Nat.sub_self]
  cases scope.mode <;> rfl

end

/-- Settles O13: the receiver over the frame's bits, and each field read back from its place among them. -/
theorem frameIsReceivedAsSent : Obligations.FrameIsReceivedAsSent := by
  intro s kind sender scope body h hsender hbody
  have hlen := length_frameBits kind sender scope body
  have hn : natOfBits (((frameBits kind sender scope body).drop 18).take 5) = body.length := by
    rw [frameBits_length, natOfBits_bitsOf, length_field hbody]
  have hall := hasHeard_all h hn hlen _ (Nat.le_refl _)
  rw [List.take_length] at hall
  dsimp only
  generalize s.afterAll ((frameBits kind sender scope body).map fun b => .bitSample (bitLevel b)) = t at hall
  obtain ⟨hwork, hstate, hposition, hbuffer, -, hframe, hdec⟩ := hall
  rw [List.take_length] at hbuffer
  have hkind : BitVec.ofNat 3 (natOfBits ((frameBits kind sender scope body).take 3)) = kind := by
    rw [frameBits_kind, natOfBits_bitsOf, BitVec.ofNat_toNat, BitVec.setWidth_eq]
  have hnumber : BitVec.ofNat 8 (natOfBits (((frameBits kind sender scope body).drop 10).take 8)) = scope.number := by
    rw [frameBits_number, natOfBits_bitsOf, BitVec.ofNat_toNat, BitVec.setWidth_eq]
  have hsent : BitVec.ofNat 8 (natOfBits (((frameBits kind sender scope body).drop 3).take 6)) = sender := by
    rw [frameBits_sender, natOfBits_bitsOf, sender_field hsender]
  obtain ⟨hfkind, hfowner, hfsender, hfscope, hlength⟩ := heardDecoder_fields (frameBits kind sender scope body) body.length
    (frameBits kind sender scope body).length (by omega)
  rw [← hdec] at hfkind hfowner hfsender hfscope hlength
  rw [hkind] at hfkind hfowner
  rw [hsent] at hfsender
  rw [frameBits_mode, hnumber] at hfscope
  have hacc : t.decoder.checkAcc = checkOf (frameDataBits kind sender scope body) := by
    rw [hdec]
    change checkOf ((frameBits kind sender scope body).take (min _ (23 + 8 * body.length))) = _
    rw [Nat.min_eq_right (by omega), frameBits_data]
  refine ⟨hfkind, hfowner, hfsender, hfscope, hlength, ?_, ?_, hacc, by rw [hposition, hlen], by rw [hframe, if_pos (by omega)], hstate,
    by rw [hwork, decide_eq_true hlen]⟩
  · unfold State.rxBody
    rw [hlength, hbuffer, frameBits_body]
    exact bytesOfBits_flatMap ..
  · unfold State.rxCheck
    rw [hlength, hbuffer, hacc, Option.getD_some, frameBits_check, List.take_of_length_le (Nat.le_of_eq (length_bitsOf _)),
      natOfBits_bitsOf, BitVec.ofNat_toNat, BitVec.setWidth_eq]

end Sys2Proof.Machine
end

section
/-! SUPPORT. The instant finished (R50, R52, R70, R131; log entry 2): what finishing it leaves in hand and offered, and that every event that
starts an instant meets it finished. -/

namespace Sys2Proof.Machine

/-! ### The offers of a finished instant (R85, R131) -/

@[simp] theorem endEntry_send (o : SendOutcome) (e : SendEntry) (s : State) :
    (endEntry o e s).send = { s.send with issued := issuedAfter e o s.send.issued } := rfl

theorem mayOffer_congr {s t : State} (hstation : t.station = s.station) (hline : t.line = s.line) : t.mayOffer = s.mayOffer := by
  unfold State.mayOffer
  rw [hstation, hline]

/-- R131: with a turn for each entry and one more, the checks end with the head offered, or with no head that could be. -/
theorem offerQueue_done {n : Nat} {s : State} (hn : s.send.queue.length < n) : (offerQueue n s).send.slot = s.send.slot ∧
    ((offerQueue n s).send.headQueued = false ∨ (offerQueue n s).send.offered = .head) := by
  induction n generalizing s with
  | zero => omega
  | succ n ih =>
    unfold offerQueue
    cases hq : s.send.queue with
    | nil => exact ⟨rfl, .inl (by simp [SendUnit.headQueued, hq])⟩
    | cons e rest =>
      dsimp only
      by_cases hf : e.inFlight = true
      · rw [if_pos hf]
        exact ⟨rfl, .inl (by simp [SendUnit.headQueued, hq, hf])⟩
      · rw [if_neg hf]
        cases preAttempt e s with
        | none => exact ⟨rfl, .inr rfl⟩
        | some o =>
          have hrest : (endEntry o e (s.withSend { s.send with queue := rest })).send.queue.length < n := by
            rw [hq, List.length_cons] at hn
            exact Nat.lt_of_succ_lt_succ hn
          exact ih hrest

theorem beaconOfferDue_offerBeacon (s : State) : (offerBeacon s).beaconOfferDue = false := by
  unfold offerBeacon
  by_cases h : s.beaconOfferDue = true
  · rw [if_pos h]
    simp [State.beaconOfferDue]
  · rw [if_neg h]
    simpa using h

/-- R85, R131: with the offers made, none is called for. -/
theorem makeOffers_done (s : State) : (makeOffers s).headOfferDue = false ∧ (makeOffers s).beaconOfferDue = false := by
  have hbeacon := beaconOfferDue_offerBeacon s
  unfold makeOffers
  generalize offerBeacon s = t at hbeacon
  unfold offerHead
  by_cases hdue : t.headOfferDue = true
  · rw [if_pos hdue]
    obtain ⟨hslot, hhead⟩ := offerQueue_done (Nat.lt_succ_self t.send.queue.length)
    have hempty : t.send.slot = .empty := by
      simp only [State.headOfferDue, Bool.and_eq_true, beq_iff_eq] at hdue
      exact hdue.1.1.2
    rw [hempty] at hslot
    generalize offerQueue (t.send.queue.length + 1) t = u at hslot hhead
    refine ⟨?_, by simp [State.beaconOfferDue, hslot]⟩
    rcases hhead with h | h <;> simp [State.headOfferDue, h]
  · rw [if_neg hdue]
    exact ⟨by simpa using hdue, hbeacon⟩

/-! ### What finishes an instant -/

/-- The parts of an instant, also where nothing is in hand. -/
theorem finishWork_eq (s : State) : finishWork s = eitherOrder finishAdvance finishDue (finishSample s) := by
  unfold finishWork
  by_cases hnone : s.work = Work.none
  · have hsample : finishSample s = s := by simp [finishSample, hnone, Work.none]
    have hadvance : finishAdvance s = s := finishAdvance_of_none (by rw [hnone]; rfl)
    have hdue : finishDue s = s := finishDue_of_none (by rw [hnone]; rfl)
    rw [if_pos hnone, hsample, eitherOrder_agree _ _ _ (by rw [hadvance, hdue, hadvance]), hadvance, hdue]
  · rw [if_neg hnone]

theorem settle_settled (s : State) : (settle s).settled = true := by
  obtain ⟨hhead, hbeacon⟩ := makeOffers_done (finishWork s)
  have hwork : (settle s).work = Work.none := settle_work s
  unfold State.settled
  rw [hwork]
  unfold settle
  rw [hhead, hbeacon]
  rfl

@[simp] theorem settle_settle (s : State) : settle (settle s) = settle s := settle_of_settled _ (settle_settled s)

/-! ### Events at a finished instant -/

theorem hostCommand_settle (name : CommandName) (run : State → Response × State) (s : State) :
    hostCommand name run s = hostCommand name run (settle s) := by
  simp only [hostCommand, settle_settle]

theorem shapedCommand_settle (name : CommandName) (shape : List Byte → Shape) (run : List Byte → State → Response × State)
    (args : List Byte) (s : State) : shapedCommand name shape run args s = shapedCommand name shape run args (settle s) := by
  unfold shapedCommand
  rw [settle_settle]

/-- Log entry 2: a row that starts an instant acts on the finished one. -/
theorem exec_settle {c : Instr} (hc : startsInstant c = true) (s : State) : exec c s = exec c (settle s) := by
  cases c with
  | join | leave | restart | purge | nextNotice | status | time | getPoints =>
    exact congrArg Host.Outcome.next (hostCommand_settle _ _ s)
  | setup | send | setPoints | listCue | dropCue | loadTrigger | readCapture | peer =>
    exact congrArg Host.Outcome.next (shapedCommand_settle _ _ _ _ s)
  | unknownCommand | transactionBegin | transactionCutShort | transactionEnd | resetRelease =>
    simp only [exec, execUnknownCommand, execTransactionBegin, execTransactionCutShort, execTransactionEnd, execResetRelease, settle_settle]
  | tick | slewedTick | triggerEdge => simp only [exec, execTick, execSlewedTick, execTriggerEdge, settle_settle]
  | startCondition | answerReady | endCondition | bitSample | paceFall | halfPeriodEnd =>
    simp only [exec, execStartCondition, execAnswerReady, execEndCondition, execBitSample, execPaceFall, execHalfPeriodEnd, settle_settle]
  | lineIdle | paceFallInIdle | idleCountReset => simp only [exec, execLineIdle, execPaceFallInIdle, execIdleCountReset, settle_settle]
  | stuckLow | stall | framing | recoverEnd =>
    simp only [exec, execStuckLow, execStall, execFraming, execRecoverEnd, settle_settle]
  | fullReset | firing | restore | ageOut | holdLimit | gapEnd | beaconDueTime | referenceLost | holdoverLimit | firstListenExpiry |
    peerSilence | offerHead | offerBeacon | arbitrationLost | evaluationPoint => nomatch hc

/-! ### One part taken first -/

theorem finishSample_of_none {s : State} (harb : s.work.arbLost = false) (heval : s.work.evaluate = false) : finishSample s = s := by
  simp [finishSample, harb, heval]

/-- R98, R120: what a sample left is done once. -/
theorem finishSample_finishSample (s : State) : finishSample (finishSample s) = finishSample s :=
  finishSample_of_none (by rw [finishSample_work]) (by rw [finishSample_work])

/-- R98: the loss taken first, the rest of what the sample left stands. -/
theorem finishSample_arbitrationLost (s : State) :
    finishSample (if s.work.arbLost then loseArbitration s else s) = finishSample s := by
  have hlost : (if s.work.arbLost then loseArbitration s else s).work.arbLost = false := by
    by_cases harb : s.work.arbLost = true
    · rw [if_pos harb, loseArbitration_work]
    · rw [if_neg harb]
      simpa using harb
  unfold finishSample
  dsimp only
  rw [hlost]
  rfl

theorem settle_of_finishSample {s t : State} (h : finishSample t = finishSample s) : settle t = settle s := by
  unfold settle
  rw [finishWork_eq, finishWork_eq, h]

/-- Where no due time is in hand, the advance alone is worked. -/
theorem finishWork_of_advance {s : State} (harb : s.work.arbLost = false) (heval : s.work.evaluate = false) (hdue : s.work.due = false) :
    finishWork s = finishAdvance s := by
  have hdue' : finishDue (finishAdvance s) = finishAdvance s := finishDue_of_none (by simp [hdue])
  rw [finishWork_eq, finishSample_of_none harb heval,
    eitherOrder_agree _ _ _ (by rw [hdue', finishDue_of_none hdue]), hdue']

/-- Where no advance is in hand, the due time alone is worked. -/
theorem finishWork_of_due {s : State} (harb : s.work.arbLost = false) (heval : s.work.evaluate = false) (hadv : s.work.advance = none) :
    finishWork s = finishDue s := by
  have hadv' : finishAdvance (finishDue s) = finishDue s := finishAdvance_of_none (by simp [hadv])
  rw [finishWork_eq, finishSample_of_none harb heval,
    eitherOrder_agree _ _ _ (by rw [hadv', finishAdvance_of_none hadv]), finishAdvance_of_none hadv]

/-- R72: a due time in hand alone is taken whole by its own row. -/
theorem settle_of_beaconDueTime {s t : State} (hwork : s.work = { Work.none with due := true })
    (h : exec .beaconDueTime s = .next t) : settle t = settle s := by
  obtain rfl : finishDue s = t := by injection h
  have hdone : (finishDue s).work = Work.none := by simp [hwork, Work.none]
  unfold settle
  rw [finishWork_of_none _ hdone, finishWork_of_due (by rw [hwork]; rfl) (by rw [hwork]; rfl) (by rw [hwork]; rfl)]

/-- R98, R120: what a sample left is done as its own rows do it. -/
theorem settle_of_sampleRow {s t : State} {c : Instr} (hc : c = .arbitrationLost ∨ c = .evaluationPoint)
    (h : exec c s = .next t) : settle t = settle s := by
  rcases hc with rfl | rfl
  · obtain rfl : (if s.work.arbLost then loseArbitration s else s) = t := by injection h
    exact settle_of_finishSample (finishSample_arbitrationLost s)
  · obtain rfl : finishSample s = t := by injection h
    exact settle_of_finishSample (finishSample_finishSample s)

end Sys2Proof.Machine
end

section
/-! SUPPORT. The readers of one advance (R51, R52, R70, R130, R143, R149): taking one part of their work first leads to the same state. -/

namespace Sys2Proof.Machine

/-! ### The firing unit beside the other blocks -/

/-- An update of a block that the firing unit neither reads nor changes. -/
structure BesideFiring (g : State → State) : Prop where
  cues : ∀ s, (g s).cues = s.cues
  points : ∀ s, (g s).points = s.points
  fire : ∀ adv e rest s, fireEntry adv e rest (g s) = g (fireEntry adv e rest s)
  restore : ∀ p s, (g s).withPoints p = g (s.withPoints p)

theorem besideFiring_withWork (w : Work) : BesideFiring (fun s => s.withWork w) :=
  ⟨fun _ => rfl, fun _ => rfl, fun _ _ _ _ => rfl, fun _ _ => rfl⟩

theorem besideFiring_withSend (u : SendUnit) : BesideFiring (fun s => s.withSend u) :=
  ⟨fun _ => rfl, fun _ => rfl, fun _ _ _ _ => rfl, fun _ _ => rfl⟩

theorem besideFiring_withInputs (i : Four TriggerInput) : BesideFiring (fun s => s.withInputs i) :=
  ⟨fun _ => rfl, fun _ => rfl, fun _ _ _ _ => rfl, fun _ _ => rfl⟩

/-- What is due is told by the table and the pulse list. -/
theorem nextDueItem_congr {s t : State} (adv : Advance) (hc : t.cues = s.cues) (hp : t.points = s.points) :
    nextDueItem adv t = nextDueItem adv s := by
  unfold nextDueItem dueEntry
  rw [hc, hp]

section
variable {g : State → State} (G : BesideFiring g) (adv : Advance)
include G

theorem BesideFiring.takeDueItem (it : DueItem) (s : State) : takeDueItem adv it (g s) = g (takeDueItem adv it s) := by
  cases it with
  | entry e rest => exact G.fire adv e rest s
  | restores d =>
    change (g s).withPoints (applyRestores adv d (g s).points) = g (s.withPoints (applyRestores adv d s.points))
    rw [G.points, G.restore]

theorem BesideFiring.takeDueItems (n : Nat) (s : State) : takeDueItems adv n (g s) = g (takeDueItems adv n s) := by
  induction n generalizing s with
  | zero => rfl
  | succ n ih =>
    rw [Machine.takeDueItems, Machine.takeDueItems, nextDueItem_congr adv (G.cues s) (G.points s)]
    cases nextDueItem adv s with
    | none => rfl
    | some it => exact (congrArg _ (G.takeDueItem adv it s)).trans (ih _)

theorem BesideFiring.fireAdvance (s : State) : fireAdvance adv (g s) = g (fireAdvance adv s) := by
  have hbound : dueBound (g s) = dueBound s := by
    unfold dueBound
    rw [G.cues, G.points]
  unfold Machine.fireAdvance
  rw [hbound, G.takeDueItems]

end

/-- R52: the table and the points that an advance leaves are told by those it meets. -/
theorem takeDueItems_congr {s t : State} (adv : Advance) (n : Nat) (hc : t.cues = s.cues) (hp : t.points = s.points) :
    (takeDueItems adv n t).cues = (takeDueItems adv n s).cues ∧ (takeDueItems adv n t).points = (takeDueItems adv n s).points := by
  induction n generalizing s t with
  | zero => exact ⟨hc, hp⟩
  | succ n ih =>
    rw [takeDueItems, takeDueItems, nextDueItem_congr adv hc hp]
    cases nextDueItem adv s with
    | none => exact ⟨hc, hp⟩
    | some it =>
      cases it with
      | entry e rest =>
        refine ih (s := fireEntry adv e rest s) (t := fireEntry adv e rest t) ?_ ?_
        · exact congrArg (fun c : CueTable => { c with armed := tableAfter adv e rest }) hc
        · exact congrArg (applyActions e.fireTime e.actions) hp
      | restores d =>
        exact ih (s := s.withPoints (applyRestores adv d s.points)) (t := t.withPoints (applyRestores adv d t.points)) hc
          (congrArg (applyRestores adv d) hp)

theorem fireAdvance_congr {s t : State} (adv : Advance) (hc : t.cues = s.cues) (hp : t.points = s.points) :
    (fireAdvance adv t).cues = (fireAdvance adv s).cues ∧ (fireAdvance adv t).points = (fireAdvance adv s).points := by
  have hbound : dueBound t = dueBound s := by
    unfold dueBound
    rw [hc, hp]
  unfold fireAdvance
  rw [hbound]
  exact takeDueItems_congr adv _ hc hp

/-- R52: what the firing unit makes of the advance in hand. -/
def State.fired (adv : Advance) (s : State) : State := fireAdvance adv (s.withWork { s.work with advance := none })

theorem finishAdvance_eq_fired {s : State} {adv : Advance} (h : s.work.advance = some adv) :
    finishAdvance s = advanceInputs adv (ageIssued adv (s.fired adv)) := finishAdvance_of_some h

theorem touches_fired (adv : Advance) (s : State) : Touches [.points, .cues, .port, .work] s (s.fired adv) :=
  (Touches.withWork s _).andThen (touches_fireAdvance adv _) |>.mono (by simp)

theorem fired_withInputs (adv : Advance) (s : State) (i : Four TriggerInput) :
    (s.withInputs i).fired adv = (s.fired adv).withInputs i := (besideFiring_withInputs i).fireAdvance adv (s.withWork { s.work with advance := none })

theorem fired_withSend (adv : Advance) (s : State) (u : SendUnit) :
    (s.withSend u).fired adv = (s.fired adv).withSend u := (besideFiring_withSend u).fireAdvance adv (s.withWork { s.work with advance := none })

theorem fired_congr {s t : State} (adv : Advance) (hc : t.cues = s.cues) (hp : t.points = s.points) :
    (t.fired adv).cues = (s.fired adv).cues ∧ (t.fired adv).points = (s.fired adv).points :=
  fireAdvance_congr adv (s := s.withWork { s.work with advance := none }) (t := t.withWork { t.work with advance := none }) hc hp

/-! ### One due item first (R52) -/

/-- A due item taken first is the one the firing unit takes first. -/
theorem FiringReady.fireAdvance_takeDueItem {adv : Advance} {s : State} {it : DueItem} (h : FiringReady adv s)
    (hit : nextDueItem adv s = some it) : Machine.fireAdvance adv (Machine.takeDueItem adv it s) = Machine.fireAdvance adv s := by
  obtain ⟨hready, hless⟩ := h.takeDueItem hit
  have henough := dueWork_le_dueBound adv s
  calc Machine.takeDueItems adv (dueBound (Machine.takeDueItem adv it s)) (Machine.takeDueItem adv it s)
      = Machine.takeDueItems adv (dueBound s) (Machine.takeDueItem adv it s) :=
        hready.takeDueItems_eq (dueWork_le_dueBound adv _) (by omega)
    _ = Machine.takeDueItems adv (dueBound s + 1) s := by rw [Machine.takeDueItems, hit]
    _ = Machine.takeDueItems adv (dueBound s) s := h.takeDueItems_eq (by omega) henough

/-- What FIRING and RESTORE do: the next due item, where it is theirs, and else nothing. -/
theorem taken_of_exec {s t : State} {c : Instr} {adv : Advance} (hadv : s.work.advance = some adv) (hc : c = .firing ∨ c = .restore)
    (h : exec c s = .next t) : t = s ∨ ∃ it, nextDueItem adv s = some it ∧ t = takeDueItem adv it s := by
  have hdue : s.dueItem = (nextDueItem adv s).map (fun it => (adv, it)) := by
    unfold State.dueItem
    rw [hadv]
  rcases hc with rfl | rfl
  · change execFiring s = _ at h
    unfold execFiring at h
    rw [hdue] at h
    cases hit : nextDueItem adv s with
    | none =>
      rw [hit] at h
      exact .inl (Host.Outcome.next.inj h).symm
    | some it =>
      rw [hit] at h
      cases it with
      | entry e rest => exact .inr ⟨_, rfl, (Host.Outcome.next.inj h).symm⟩
      | restores d => exact .inl (Host.Outcome.next.inj h).symm
  · change execRestore s = _ at h
    unfold execRestore at h
    rw [hdue] at h
    cases hit : nextDueItem adv s with
    | none =>
      rw [hit] at h
      exact .inl (Host.Outcome.next.inj h).symm
    | some it =>
      rw [hit] at h
      cases it with
      | entry e rest => exact .inl (Host.Outcome.next.inj h).symm
      | restores d => exact .inr ⟨_, rfl, (Host.Outcome.next.inj h).symm⟩

theorem finishAdvance_takeDueItem {s : State} {adv : Advance} {it : DueItem} (hadv : s.work.advance = some adv) (ht : s.TableSafe)
    (ho : s.OrderSafe) (hit : nextDueItem adv s = some it) : finishAdvance (takeDueItem adv it s) = finishAdvance s := by
  have hready := ho.firingReady ht hadv
  have hwork : (takeDueItem adv it s).work = s.work := (touches_takeDueItem adv it s).work (by simp)
  have hfire := hready.fireAdvance_takeDueItem hit
  rw [(besideFiring_withWork { s.work with advance := none }).takeDueItem adv it s] at hfire
  rw [finishAdvance_of_some (hwork ▸ hadv), finishAdvance_of_some hadv, hwork, hfire]

/-! ### One reader first (R130, R143, R149) -/

theorem holdLimitAt_idem (adv : Advance) (c : Capture) : holdLimitAt adv (holdLimitAt adv c) = holdLimitAt adv c := by
  cases c with
  | empty | expired => rfl
  | held t e extra holdEnd =>
    by_cases h : adv.reaches holdEnd = true <;> simp [holdLimitAt, h]

theorem gapEndAt_idem (adv : Advance) (x : Option Time) : gapEndAt adv (gapEndAt adv x) = gapEndAt adv x := by
  cases x with
  | none => rfl
  | some t => by_cases h : adv.reaches t = true <;> simp [gapEndAt, h]

/-- A change of one input that the map makes anyway does not show after it. -/
theorem fourMap_fourSet {α β : Type} {h : α → β} {f : Four α} {i : Fin 4} {x : α} (hx : h x = h (fourGet f i)) :
    fourMap h (fourSet f i x) = fourMap h f := by
  match i with
  | 0 => exact congrArg (fun y => (⟨y, h f.t1, h f.t2, h f.t3⟩ : Four β)) hx
  | 1 => exact congrArg (fun y => (⟨h f.t0, y, h f.t2, h f.t3⟩ : Four β)) hx
  | 2 => exact congrArg (fun y => (⟨h f.t0, h f.t1, y, h f.t3⟩ : Four β)) hx
  | 3 => exact congrArg (fun y => (⟨h f.t0, h f.t1, h f.t2, y⟩ : Four β)) hx

/-- R143, R149: what an advance makes of one input. -/
def TriggerInput.advanced (adv : Advance) (i : TriggerInput) : TriggerInput :=
  { i with capture := holdLimitAt adv i.capture, gapEnd := gapEndAt adv i.gapEnd }

theorem advanceInputs_eq (adv : Advance) (s : State) :
    advanceInputs adv s = s.withInputs (fourMap (TriggerInput.advanced adv) s.inputs) := rfl

theorem finishAdvance_withInputs {s : State} {adv : Advance} {i : Fin 4} {x : TriggerInput} (hadv : s.work.advance = some adv)
    (hx : x.advanced adv = (fourGet s.inputs i).advanced adv) :
    finishAdvance (s.withInputs (fourSet s.inputs i x)) = finishAdvance s := by
  have hinputs : (s.fired adv).inputs = s.inputs := (touches_fired adv s).inputs (by simp)
  rw [finishAdvance_eq_fired (s := s.withInputs (fourSet s.inputs i x)) hadv, finishAdvance_eq_fired hadv, fired_withInputs]
  generalize s.fired adv = u at hinputs ⊢
  rw [advanceInputs_eq, advanceInputs_eq]
  change (ageIssued adv u).withInputs (fourMap _ (fourSet s.inputs i x)) = (ageIssued adv u).withInputs (fourMap _ u.inputs)
  rw [hinputs, fourMap_fourSet hx]

theorem finishAdvance_ageIssued {s : State} {adv : Advance} (hadv : s.work.advance = some adv) :
    finishAdvance (ageIssued adv s) = finishAdvance s := by
  have hsend : (s.fired adv).send = s.send := (touches_fired adv s).send (by simp)
  rw [finishAdvance_eq_fired (s := ageIssued adv s) hadv, finishAdvance_eq_fired hadv]
  have hfired : (ageIssued adv s).fired adv =
      (s.fired adv).withSend { s.send with issued := s.send.issued.filter (fun i => !adv.passes i.lastFire) } := fired_withSend adv s _
  rw [hfired]
  generalize s.fired adv = u at hsend ⊢
  congr 1
  unfold ageIssued
  rw [hsend]
  change u.withSend { s.send with issued := List.filter _ (List.filter _ s.send.issued) } = _
  rw [List.filter_filter]
  simp only [Bool.and_self]

/-- Log entry 2: one part of the readers' work taken first leads to the same finished instant. -/
theorem settle_of_readerRow {s t : State} {c : Instr} {adv : Advance} (hwork : s.work = { Work.none with advance := some adv })
    (ht : s.TableSafe) (ho : s.OrderSafe)
    (hc : c = .firing ∨ c = .restore ∨ c = .ageOut ∨ (∃ i, c = .holdLimit i) ∨ (∃ i, c = .gapEnd i))
    (h : exec c s = .next t) : settle t = settle s := by
  have hadv : s.work.advance = some adv := by rw [hwork]
  suffices hsame : t.work = s.work ∧ finishAdvance t = finishAdvance s by
    obtain ⟨hw, hfinish⟩ := hsame
    have htwork := hw.trans hwork
    unfold settle
    rw [finishWork_of_advance (by rw [htwork]; rfl) (by rw [htwork]; rfl) (by rw [htwork]; rfl),
      finishWork_of_advance (by rw [hwork]; rfl) (by rw [hwork]; rfl) (by rw [hwork]; rfl), hfinish]
  have htaken (hdue : c = .firing ∨ c = .restore) : t.work = s.work ∧ finishAdvance t = finishAdvance s := by
    rcases taken_of_exec hadv hdue h with rfl | ⟨it, hit, rfl⟩
    · exact ⟨rfl, rfl⟩
    · exact ⟨(touches_takeDueItem adv it s).work (by simp), finishAdvance_takeDueItem hadv ht ho hit⟩
  rcases hc with hc | hc | rfl | ⟨i, rfl⟩ | ⟨i, rfl⟩
  · exact htaken (.inl hc)
  · exact htaken (.inr hc)
  · change execAgeOut s = _ at h
    unfold execAgeOut at h
    rw [hadv] at h
    obtain rfl := Host.Outcome.next.inj h
    exact ⟨rfl, finishAdvance_ageIssued hadv⟩
  · change execHoldLimit i s = _ at h
    unfold execHoldLimit at h
    rw [hadv] at h
    obtain rfl := Host.Outcome.next.inj h
    refine ⟨rfl, finishAdvance_withInputs hadv ?_⟩
    unfold TriggerInput.advanced
    rw [holdLimitAt_idem]
  · change execGapEnd i s = _ at h
    unfold execGapEnd at h
    rw [hadv] at h
    obtain rfl := Host.Outcome.next.inj h
    refine ⟨rfl, finishAdvance_withInputs hadv ?_⟩
    unfold TriggerInput.advanced
    rw [gapEndAt_idem]

end Sys2Proof.Machine
end

section
/-! SUPPORT. What a finished instant leaves in the blocks that the parts of its work touch together (R50, R52, R70, R72, R120). -/

namespace Sys2Proof.Machine

/-! ### The table through a sample (R21 to R31, R38) -/

theorem State.TableSafe.congr {s t : State} (h : s.TableSafe) (hc : t.cues = s.cues) (hp : t.points = s.points)
    (hs : t.station.state = s.station.state) : t.TableSafe := by
  unfold State.TableSafe at h ⊢
  rwa [hc, hp, hs]

theorem CuesStep.refl (s : State) : CuesStep s s.cues := ⟨id, fun _ => id, fun e he => ⟨e, he, rfl⟩⟩

/-- A part of a sample's work: the points and the station state as they were, and a sound table. -/
structure TableStep (s t : State) : Prop where
  points : t.points = s.points
  state : t.station.state = s.station.state
  cues : CuesStep s t.cues

theorem TableStep.of_cues {s t : State} (hp : t.points = s.points) (hs : t.station.state = s.station.state) (hc : t.cues = s.cues) :
    TableStep s t := ⟨hp, hs, hc ▸ CuesStep.refl s⟩

theorem TableStep.refl (s : State) : TableStep s s := .of_cues rfl rfl rfl

theorem TableStep.tableSafe {s t : State} (h : TableStep s t) (hs : s.TableSafe) : t.TableSafe :=
  (h.cues.table hs).congr rfl h.points h.state

theorem TableStep.trans {s t u : State} (h : TableStep s t) (h' : TableStep t u) : TableStep s u where
  points := h'.points.trans h.points
  state := h'.state.trans h.state
  cues :=
    { table := fun hs => (h'.cues.table (h.tableSafe hs)).congr (s := t.withCues u.cues) rfl h.points.symm h.state.symm
      order := fun base hs => h'.cues.order base (h.cues.order base hs)
      times := fun e he => by
        obtain ⟨f, hf, hef⟩ := h'.cues.times e he
        obtain ⟨g, hg, hfg⟩ := h.cues.times f hf
        exact ⟨g, hg, hef.trans hfg⟩ }

/-- The offer record beside a new table. -/
theorem CuesStep.recorded {s : State} {c : CueTable} (h : CuesStep s c) (o : Option OfferRecord) : CuesStep s { c with offer := o } := by
  have htable : TableStep s (s.withCues c) := ⟨rfl, rfl, h⟩
  have hrecord : TableStep (s.withCues c) ((s.withCues c).withCues { c with offer := o }) := ⟨rfl, rfl, cuesStep_offer (s.withCues c) o⟩
  exact (htable.trans hrecord).cues

theorem evaluateWithdraw_cuesStep (s : State) : CuesStep s (evaluateWithdraw s).cues := by
  unfold evaluateWithdraw
  split
  · exact cuesStep_offer s _
  · split
    · exact cuesStep_offer s _
    · split
      · exact cuesStep_offer s _
      · exact (cuesStep_setMark s (offerKey s)).recorded _

theorem answerWithdraw_cuesStep (s : State) : CuesStep s (answerWithdraw s).cues := by
  unfold answerWithdraw
  cases s.station.state with
  | active => exact evaluateWithdraw_cuesStep s
  | silent => exact (touches_missWithdraw s).cues (by simp) ▸ CuesStep.refl s
  | listen | setup | halted => exact CuesStep.refl s

theorem evaluateCue_cuesStep {s : State} (ha : s.station.state = .active) : CuesStep s (evaluateCue s).cues := by
  unfold evaluateCue
  split
  · exact cuesStep_offer s _
  · exact cuesStep_offer s _
  · rename_i b hj
    exact (cuesStep_provisional hj s.decoder.ownFrame ha).recorded _

theorem answerCue_cuesStep (s : State) : CuesStep s (answerCue s).cues := by
  unfold answerCue
  cases ha : s.station.state with
  | active =>
    dsimp only
    split
    · exact evaluateCue_cuesStep ha
    · exact CuesStep.refl s
  | silent | listen | setup | halted => exact CuesStep.refl s

/-- R118: what the owners' answers make of the table. -/
theorem answerFrame_tableStep (s : State) : TableStep s (answerFrame s) := by
  have htouches := touches_answerFrame s
  refine ⟨htouches.points (by simp), congrArg Station.state (htouches.station (by simp)), ?_⟩
  unfold answerFrame
  split
  · split
    · exact (touches_answerBeacon s).cues (by simp) ▸ CuesStep.refl s
    · split
      · exact CuesStep.refl s
      · split
        · exact answerWithdraw_cuesStep s
        · split
          · exact answerCue_cuesStep s
          · exact (touches_answerMessage s).cues (by simp) ▸ CuesStep.refl s
  · exact CuesStep.refl s

theorem reportFrame_tableStep (s : State) : TableStep s (reportFrame s) := by
  have htouches := touches_reportFrame s
  refine .of_cues (htouches.points (by simp)) ?_ (htouches.cues (by simp))
  unfold reportFrame
  split
  · rfl
  · split
    · unfold raiseDuplicate
      split <;> rfl
    · exact congrArg Station.state ((touches_hearPeer _ _ s).station (by simp))

theorem decideAnswer_tableStep (s : State) : TableStep s (decideAnswer s) := by
  unfold decideAnswer
  split
  · exact .of_cues rfl rfl rfl
  · exact .of_cues rfl rfl rfl
  · split
    · exact eitherOrder_keeps (P := TableStep s) (fun t h => h.trans (reportFrame_tableStep t))
        (fun t h => h.trans (answerFrame_tableStep t)) (fun t n h => h.trans (.of_cues (t := t.withOrder n) rfl rfl rfl)) s (.refl s)
    · exact .of_cues rfl rfl rfl
    · exact .of_cues rfl rfl rfl
    · exact .of_cues rfl rfl rfl

/-- R98, R120: what a sample left changes the table as its answer does, and no point. -/
theorem finishSample_tableStep (s : State) : TableStep s (finishSample s) := by
  have harb : TableStep s (if s.work.arbLost then loseArbitration s else s) := by
    split
    · have h := touches_loseArbitration s
      exact .of_cues (h.points (by simp)) (congrArg Station.state (h.station (by simp))) (h.cues (by simp))
    · exact .refl s
  unfold finishSample
  dsimp only
  generalize (if s.work.arbLost then loseArbitration s else s) = t at harb ⊢
  split
  · refine harb.trans (.trans (t := ((t.withWork { t.work with evaluate := false }).withLine t.line.atEvaluation).withDecoder _)
      (.of_cues rfl rfl rfl) (decideAnswer_tableStep _))
  · exact harb

/-! ### What each part of the work is told by -/

theorem finishAdvance_congr {s t : State} (hadv : t.work.advance = s.work.advance) (hc : t.cues = s.cues) (hp : t.points = s.points)
    (hi : t.inputs = s.inputs) : (finishAdvance t).cues = (finishAdvance s).cues ∧
      (finishAdvance t).points = (finishAdvance s).points ∧ (finishAdvance t).inputs = (finishAdvance s).inputs := by
  cases h : s.work.advance with
  | none =>
    rw [finishAdvance_of_none h, finishAdvance_of_none (hadv.trans h)]
    exact ⟨hc, hp, hi⟩
  | some adv =>
    rw [finishAdvance_eq_fired h, finishAdvance_eq_fired (hadv.trans h)]
    obtain ⟨hcues, hpoints⟩ := fired_congr adv hc hp
    have hinputs (x : State) : (x.fired adv).inputs = x.inputs := (touches_fired adv x).inputs (by simp)
    refine ⟨hcues, hpoints, ?_⟩
    change fourMap (TriggerInput.advanced adv) (t.fired adv).inputs = fourMap (TriggerInput.advanced adv) (s.fired adv).inputs
    rw [hinputs, hinputs, hi]

/-- R52, R143, R149: the table, the points and the inputs of a finished instant are the readers' of its advance. -/
theorem finishWork_readers (s : State) : (finishWork s).cues = (finishAdvance (finishSample s)).cues ∧
    (finishWork s).points = (finishAdvance (finishSample s)).points ∧ (finishWork s).inputs = (finishAdvance (finishSample s)).inputs := by
  rw [finishWork_eq]
  generalize finishSample s = u
  have hdue (x : State) := touches_finishDue x
  rcases eitherOrder_cases finishAdvance finishDue u with h | h | h <;> rw [h]
  · exact ⟨(hdue _).cues (by simp), (hdue _).points (by simp), (hdue _).inputs (by simp)⟩
  · refine finishAdvance_congr (by rw [finishDue_work]; rfl) ?_ ?_ ?_
    · exact (hdue _).cues (by simp)
    · exact (hdue _).points (by simp)
    · exact (hdue _).inputs (by simp)
  · obtain ⟨hcues, hpoints, hinputs⟩ := finishAdvance_congr (s := u) (t := u.withOrder (u.order + 1)) rfl rfl rfl rfl
    exact ⟨((hdue _).cues (by simp)).trans hcues, ((hdue _).points (by simp)).trans hpoints,
      ((hdue _).inputs (by simp)).trans hinputs⟩

/-- R72: the count of a due time is told by the clock and the station record. -/
theorem counted_congr {s t : State} (hc : t.clock = s.clock) (hs : t.station = s.station) :
    t.counted.clock = s.counted.clock ∧ t.counted.station = s.counted.station := by
  unfold State.counted dueCounts
  rw [State.withWork_clock, State.withWork_clock, hc]
  cases s.clock.state with
  | reference => exact ⟨hc, hs⟩
  | following =>
    dsimp only
    split
    · exact ⟨by simp [loseReference, hc], by simp [loseReference, hs]⟩
    · exact ⟨rfl, hs⟩
  | holdover =>
    dsimp only
    split
    · exact ⟨by simp [endHoldover, hc], by simp [endHoldover, hs]⟩
    · exact ⟨rfl, hs⟩
  | unsynced =>
    dsimp only
    split
    · split
      · exact ⟨by simp [expireWindow_clock, hc], by rw [expireWindow_station, expireWindow_station, State.withWork_station, State.withWork_station, hs]⟩
      · exact ⟨rfl, hs⟩
    · exact ⟨hc, hs⟩

/-- What a due time leaves of the line clock, the station and the peer table. -/
structure SameDueTime (s t : State) : Prop where
  clock : t.clock = s.clock
  station : t.station = s.station
  peers : t.peers = s.peers
  slot : t.send.slot = s.send.slot

theorem finishDue_congr {s t : State} (hdue : t.work.due = s.work.due) (h : SameDueTime s t) : SameDueTime (finishDue s) (finishDue t) := by
  by_cases hs : s.work.due = true
  · have ht : t.work.due = true := hdue.trans hs
    obtain ⟨hclock, hstation⟩ := counted_congr h.clock h.station
    have hsend (x : State) : x.counted.send = x.send := (touches_counted x).send (by simp)
    refine ⟨?_, ?_, ?_, ?_⟩
    · rw [finishDue_clock hs, finishDue_clock ht, hclock]
    · rw [finishDue_station hs, finishDue_station ht, hstation]
    · rw [finishDue_peers hs, finishDue_peers ht, h.peers]
    · rw [finishDue_send hs, finishDue_send ht]
      unfold State.placedSlot
      rw [hclock, hstation, hsend, hsend, h.slot]
  · rw [finishDue_of_none (by simpa using hs), finishDue_of_none (by simpa [hdue] using hs)]
    exact h

theorem finishAdvance_sameDueTime (s : State) : SameDueTime s (finishAdvance s) := by
  have h := touches_finishAdvance s
  exact ⟨h.clock (by simp), h.station (by simp), h.peers (by simp), by rw [finishAdvance_send]⟩

theorem SameDueTime.trans {s t u : State} (h : SameDueTime s t) (h' : SameDueTime t u) : SameDueTime s u :=
  ⟨h'.clock.trans h.clock, h'.station.trans h.station, h'.peers.trans h.peers, h'.slot.trans h.slot⟩

/-- R72: the line clock, the station and the peers of a finished instant are those its due time leaves. -/
theorem finishWork_sameDueTime (s : State) : SameDueTime (finishDue (finishSample s)) (finishWork s) := by
  rw [finishWork_eq]
  generalize finishSample s = u
  have horder (n : Nat) : SameDueTime u (u.withOrder n) := ⟨rfl, rfl, rfl, rfl⟩
  rcases eitherOrder_cases finishAdvance finishDue u with h | h | h <;> rw [h]
  · exact finishDue_congr (by rw [finishAdvance_work]) (finishAdvance_sameDueTime u)
  · exact (finishDue_congr (s := u) (t := u.withOrder (u.order + 1)) rfl (horder _)).trans (finishAdvance_sameDueTime (finishDue (u.withOrder (u.order + 1))))
  · exact finishDue_congr (by rw [finishAdvance_work]; rfl) ((horder _).trans (finishAdvance_sameDueTime _))

theorem makeOffers_slot (s : State) : (makeOffers s).send.slot = s.send.slot := by
  have hbeacon : (offerBeacon s).send.slot = s.send.slot := by
    unfold offerBeacon
    split <;> rfl
  rw [← hbeacon]
  unfold makeOffers offerHead
  generalize offerBeacon s = t
  split
  · exact (offerQueue_done (Nat.lt_succ_self _)).1
  · rfl

theorem settle_sameDueTime (s : State) : SameDueTime (finishDue (finishSample s)) (settle s) := by
  have h := touches_makeOffers (finishWork s)
  exact (finishWork_sameDueTime s).trans ⟨h.clock (by simp), h.station (by simp), h.peers (by simp), makeOffers_slot _⟩

theorem settle_readers (s : State) : (settle s).cues = (finishAdvance (finishSample s)).cues ∧
    (settle s).points = (finishAdvance (finishSample s)).points ∧ (settle s).inputs = (finishAdvance (finishSample s)).inputs := by
  have h := touches_makeOffers (finishWork s)
  obtain ⟨hcues, hpoints, hinputs⟩ := finishWork_readers s
  exact ⟨(h.cues (by simp)).trans hcues, (h.points (by simp)).trans hpoints, (h.inputs (by simp)).trans hinputs⟩

/-- R120: the decoder and the line of a finished instant are those the sample leaves. -/
theorem settle_frame (s : State) : (settle s).decoder = (finishSample s).decoder ∧ (settle s).line = (finishSample s).line := by
  have hwork := Touches.eitherOrder (bs := [.clock, .cues, .points, .station, .peers, .send, .inputs, .port, .work])
    (fun s => (touches_finishAdvance s).mono (by simp)) (fun s => (touches_finishDue s).mono (by simp)) (finishSample s)
  rw [← finishWork_eq] at hwork
  have h := hwork.andThen (touches_makeOffers _)
  exact ⟨h.decoder (by simp), h.line (by simp)⟩

end Sys2Proof.Machine
end

section
/-! SUPPORT. The issued list through a finished instant (R130, R131, R133): the advance in hand takes from it the entries it goes beyond, and
nothing else of the instant's work takes one or puts one back. -/

namespace Sys2Proof.Machine

/-- R128: no CUE of the queue holds this issued entry's serial. -/
def SendUnit.ApartFrom (u : SendUnit) (x : Issued) : Prop := x.serial ∉ u.queue.flatMap SendEntry.cueSerial

theorem SendUnit.Safe.apartFrom {u : SendUnit} (h : u.Safe) {x : Issued} (hx : x ∈ u.issued) : u.ApartFrom x := by
  rw [SendUnit.safe_iff] at h
  obtain ⟨-, -, -, hnodup, -⟩ := h
  rw [cueSerials_eq] at hnodup
  exact fun hq => List.disjoint_of_nodup_append hnodup hq (List.mem_map_of_mem hx)

/-- A part of an instant's work that leaves this issued entry where it is. -/
structure IssuedStands (x : Issued) (u v : SendUnit) : Prop where
  apart : u.ApartFrom x → v.ApartFrom x
  issued : u.ApartFrom x → (x ∈ v.issued ↔ x ∈ u.issued)

theorem IssuedStands.of_eq {x : Issued} {u v : SendUnit} (hq : v.queue = u.queue) (hi : v.issued = u.issued) : IssuedStands x u v := by
  refine ⟨fun h => ?_, fun _ => by rw [hi]⟩
  unfold SendUnit.ApartFrom at h ⊢
  rwa [hq]

theorem IssuedStands.refl (x : Issued) (u : SendUnit) : IssuedStands x u u := .of_eq rfl rfl

theorem IssuedStands.trans {x : Issued} {u v w : SendUnit} (h : IssuedStands x u v) (h' : IssuedStands x v w) : IssuedStands x u w :=
  ⟨fun ha => h'.apart (h.apart ha), fun ha => (h'.issued (h.apart ha)).trans (h.issued ha)⟩

/-- R133: the ending of an entry that was not accepted adds its own serial at most. -/
theorem mem_issuedAfter {x : Issued} {e : SendEntry} {o : SendOutcome} {l : List Issued} (ho : o ≠ .accepted)
    (hx : x.serial ∉ e.cueSerial) : x ∈ issuedAfter e o l ↔ x ∈ l := by
  unfold issuedAfter
  split
  · rename_i henters
    have hcue : e.kind = .cue := by
      simp only [entersIssued, Bool.and_eq_true, beq_iff_eq] at henters
      exact henters.1
    rw [List.mem_append, List.mem_singleton]
    refine or_iff_left fun heq => hx ?_
    rw [SendEntry.cueSerial, if_pos hcue, heq]
    exact List.mem_singleton_self _
  · rw [if_neg fun h => ho h.2]

section
variable {x : Issued} {s : State} {e e' : SendEntry} {rest : List SendEntry}

/-- R132, R133: the head's ending, not accepted. -/
theorem issuedStands_ended (hq : s.send.queue = e :: rest) (hk : e'.kind = e.kind) (hs : e'.serial = e.serial) {o : SendOutcome}
    (ho : o ≠ .accepted) : IssuedStands x s.send (endEntry o e' (s.withSend { s.send with queue := rest })).send := by
  have hserial : e'.cueSerial = e.cueSerial := by rw [SendEntry.cueSerial, SendEntry.cueSerial, hk, hs]
  have hparts : s.send.ApartFrom x ↔ x.serial ∉ e.cueSerial ∧ x.serial ∉ rest.flatMap SendEntry.cueSerial := by
    rw [SendUnit.ApartFrom, hq, List.flatMap_cons, List.mem_append, not_or]
  exact ⟨fun h => (hparts.1 h).2, fun h => mem_issuedAfter ho (hserial ▸ (hparts.1 h).1)⟩

theorem issuedStands_requeued (hq : s.send.queue = e :: rest) (hk : e'.kind = e.kind) (hs : e'.serial = e.serial) :
    IssuedStands x s.send { s.send with queue := e' :: rest } := by
  have hserial : e'.cueSerial = e.cueSerial := by rw [SendEntry.cueSerial, SendEntry.cueSerial, hk, hs]
  refine ⟨fun h => ?_, fun _ => .rfl⟩
  unfold SendUnit.ApartFrom at h ⊢
  rwa [hq, List.flatMap_cons, ← hserial] at h

end

/-- R132: a lost arbitration accepts nothing. -/
theorem headFate_lost_not_accepted {e e' : SendEntry} {o : SendOutcome} (h : headFate .lost e = .ended o e') : o ≠ .accepted := by
  unfold headFate backToQueue at h
  dsimp only at h
  split at h
  · cases h
    decide
  · cases h

theorem preAttempt_not_accepted {e : SendEntry} {s : State} {o : SendOutcome} (h : preAttempt e s = some o) : o ≠ .accepted := by
  unfold preAttempt at h
  split at h
  · split at h
    · cases h
      decide
    · split at h
      · cases h
        decide
      · cases h
  · cases h

theorem issuedStands_attemptLost (x : Issued) (s : State) : IssuedStands x s.send (attemptOutcome .lost s).send := by
  unfold attemptOutcome
  split
  · exact .of_eq rfl rfl
  · unfold headOutcome
    split
    · exact .refl x _
    · rename_i e rest hq
      obtain ⟨hk, hs⟩ := headFate_entry .lost e
      split
      · rename_i e' hf
        rw [hf] at hk hs
        exact issuedStands_requeued hq hk hs
      · rename_i o e' hf
        rw [hf] at hk hs
        exact issuedStands_ended hq hk hs (headFate_lost_not_accepted hf)

theorem issuedStands_offerQueue (x : Issued) (n : Nat) (s : State) : IssuedStands x s.send (offerQueue n s).send := by
  induction n generalizing s with
  | zero => exact .refl x _
  | succ n ih =>
    unfold offerQueue
    split
    · exact .refl x _
    · rename_i e rest hq
      split
      · exact .refl x _
      · split
        · rename_i o hfail
          exact (issuedStands_ended hq rfl rfl (preAttempt_not_accepted hfail)).trans (ih _)
        · exact .of_eq rfl rfl

theorem issuedStands_makeOffers (x : Issued) (s : State) : IssuedStands x s.send (makeOffers s).send := by
  have hbeacon : IssuedStands x s.send (offerBeacon s).send := by
    unfold offerBeacon
    split
    · exact .of_eq rfl rfl
    · exact .refl x _
  refine hbeacon.trans ?_
  unfold makeOffers offerHead
  split
  · exact issuedStands_offerQueue x _ _
  · exact .refl x _

theorem issuedStands_finishSample (x : Issued) (s : State) : IssuedStands x s.send (finishSample s).send := by
  have harb : IssuedStands x s.send (if s.work.arbLost then loseArbitration s else s).send := by
    split
    · have hlost {t : State} (hsend : t.send = s.send) : IssuedStands x s.send (attemptOutcome .lost t).send :=
        hsend ▸ issuedStands_attemptLost x t
      exact hlost (by simp)
    · exact .refl x _
  unfold finishSample
  dsimp only
  generalize (if s.work.arbLost then loseArbitration s else s) = t at harb ⊢
  split
  · rwa [(touches_evaluationPoint t).send (by simp)]
  · exact harb

theorem issuedStands_finishDue (x : Issued) (s : State) : IssuedStands x s.send (finishDue s).send := by
  by_cases hdue : s.work.due = true
  · rw [finishDue_send hdue]
    exact .of_eq rfl rfl
  · rw [finishDue_of_none (by simpa using hdue)]
    exact .refl x _

/-- R130: the advance takes the issued entries it goes beyond. -/
theorem mem_issued_finishAdvance {s : State} {adv : Advance} (hadv : s.work.advance = some adv) (x : Issued) :
    ((finishAdvance s).send.ApartFrom x ↔ s.send.ApartFrom x) ∧
      (x ∈ (finishAdvance s).send.issued ↔ x ∈ s.send.issued ∧ adv.size ≤ distance x.lastFire adv.base) := by
  rw [finishAdvance_send, hadv]
  refine ⟨.rfl, ?_⟩
  dsimp only
  rw [List.mem_filter]
  simp [Advance.passes]

theorem mem_issued_finishWork {s : State} {adv : Advance} (hadv : s.work.advance = some adv) {x : Issued} (ha : s.send.ApartFrom x) :
    (finishWork s).send.ApartFrom x ∧
      (x ∈ (finishWork s).send.issued ↔ x ∈ s.send.issued ∧ adv.size ≤ distance x.lastFire adv.base) := by
  have hsample := issuedStands_finishSample x s
  have hadv' : (finishSample s).work.advance = some adv := by rw [finishSample_work]; exact hadv
  have ha' := hsample.apart ha
  rw [← hsample.issued ha, finishWork_eq]
  generalize finishSample s = u at hadv' ha' ⊢
  have advanced (v : State) (hw : v.work.advance = some adv) (hv : v.send.ApartFrom x) :
      (finishDue (finishAdvance v)).send.ApartFrom x ∧
        (x ∈ (finishDue (finishAdvance v)).send.issued ↔ x ∈ v.send.issued ∧ adv.size ≤ distance x.lastFire adv.base) := by
    obtain ⟨hap, hmem⟩ := mem_issued_finishAdvance hw x
    have hdue := issuedStands_finishDue x (finishAdvance v)
    exact ⟨hdue.apart (hap.2 hv), (hdue.issued (hap.2 hv)).trans hmem⟩
  rcases eitherOrder_cases finishAdvance finishDue u with h | h | h <;> rw [h]
  · exact advanced u hadv' ha'
  · have hdue := issuedStands_finishDue x (u.withOrder (u.order + 1))
    have hw : (finishDue (u.withOrder (u.order + 1))).work.advance = some adv := by rw [finishDue_work]; exact hadv'
    obtain ⟨hap, hmem⟩ := mem_issued_finishAdvance hw x
    exact ⟨hap.2 (hdue.apart ha'), hmem.trans (and_congr_left' (hdue.issued ha'))⟩
  · exact advanced (u.withOrder (u.order + 1)) hadv' ha'

/-- R130: the issued entries that the advance went beyond are gone, no others. -/
theorem mem_issued_settle {s : State} {adv : Advance} (hadv : s.work.advance = some adv) (hsafe : s.send.Safe) {x : Issued}
    (hx : x ∈ s.send.issued) : x ∈ (settle s).send.issued ↔ adv.size ≤ distance x.lastFire adv.base := by
  obtain ⟨hap, hmem⟩ := mem_issued_finishWork hadv (hsafe.apartFrom hx)
  exact ((issuedStands_makeOffers x _).issued hap).trans (hmem.trans (and_iff_right hx))

end Sys2Proof.Machine
end

section
open Sys2Proof Sys2Proof.Machine

/-- R51, R52: nothing that the advance reached is left. -/
theorem settle_beyond {s : State} {adv : Advance} (hadv : s.work.advance = some adv) (ht : s.TableSafe) (ho : s.OrderSafe) :
    (∀ e ∈ (settle s).cues.armed, adv.size < distance e.fireTime adv.base) ∧
      ∀ r ∈ (settle s).points.pulses, adv.size < distance r.time adv.base := by
  obtain ⟨horder, hsize⟩ := ho
  rw [State.tableBase_of_some hadv] at horder
  have hstep := finishSample_tableStep s
  have hadv' : (finishSample s).work.advance = some adv := by rw [finishSample_work]; exact hadv
  have hready : FiringReady adv ((finishSample s).withWork { (finishSample s).work with advance := none }) :=
    ⟨(hsize adv hadv).2, hstep.tableSafe ht, hstep.cues.order adv.base horder⟩
  obtain ⟨-, harmed, hpulses⟩ := hready.fireAdvance
  obtain ⟨hcues, hpoints⟩ := finishAdvance_cues hadv'
  obtain ⟨hcues', hpoints', -⟩ := settle_readers s
  rw [hcues', hpoints', hcues, hpoints]
  exact ⟨harmed, hpulses⟩

/-- R143, R149: what the advance makes of each input. -/
theorem settle_inputs {s : State} {adv : Advance} (hadv : s.work.advance = some adv) (i : Fin 4) :
    fourGet (settle s).inputs i = (fourGet s.inputs i).advanced adv := by
  have hadv' : (finishSample s).work.advance = some adv := by rw [finishSample_work]; exact hadv
  have hinputs : ((finishSample s).fired adv).inputs = s.inputs :=
    ((touches_fired adv _).inputs (by simp)).trans ((touches_finishSample s).inputs (by simp))
  obtain ⟨-, -, hsettle⟩ := settle_readers s
  rw [hsettle, finishAdvance_eq_fired hadv']
  change fourGet (fourMap (TriggerInput.advanced adv) ((finishSample s).fired adv).inputs) i = _
  rw [fourGet_fourMap, hinputs]

/-- Settles O3. -/
theorem eventsMeetAFinishedInstant : Obligations.EventsMeetAFinishedInstant := by
  refine ⟨settle_settled, fun c s hc => exec_settle hc s, fun s base size hadv ht ho => ?_, fun s t c adv hwork ht ho hc h => ?_,
    fun s t hwork h => settle_of_beaconDueTime hwork h, fun s t c hc h => settle_of_sampleRow hc h, fun s u t hu ht => ?_⟩
  · obtain ⟨harmed, hpulses⟩ := settle_beyond hadv ht ho
    refine ⟨harmed, hpulses, fun i => ?_, fun hsafe x hx => mem_issued_settle hadv hsafe hx⟩
    rw [settle_inputs hadv i, TriggerInput.advanced, gapEndAt_eq_filter]
    congr 1
    cases (fourGet s.inputs i).capture with
    | held time edge extra holdEnd => exact holdLimitAt_held base size time edge extra holdEnd
    | empty | expired => rfl
  · exact settle_of_readerRow hwork ht ho hc h
  · obtain rfl : finishSample s = u := Host.Outcome.next.inj hu
    obtain rfl : finishDue (finishSample s) = t := Host.Outcome.next.inj ht
    have hdue := settle_sameDueTime s
    obtain ⟨hdecoder, hline⟩ := settle_frame s
    refine ⟨hdue.clock, hdue.station, hdue.peers, hdue.slot, hdecoder, hline, ?_⟩
    obtain ⟨hcues, hpoints, hinputs⟩ := settle_readers s
    obtain ⟨hcues', hpoints', hinputs'⟩ :=
      settle_readers ((finishSample s).withWork { (finishSample s).work with due := false })
    have hearly : finishSample ((finishSample s).withWork { (finishSample s).work with due := false }) =
        (finishSample s).withWork { (finishSample s).work with due := false } :=
      finishSample_of_none (by simp) (by simp)
    obtain ⟨hc, hp, hi⟩ := finishAdvance_congr (s := finishSample s)
      (t := (finishSample s).withWork { (finishSample s).work with due := false }) rfl rfl rfl rfl
    rw [hearly] at hcues' hpoints' hinputs'
    exact ⟨hcues.trans (hcues'.trans hc).symm, hpoints.trans (hpoints'.trans hp).symm, hinputs.trans (hinputs'.trans hi).symm⟩

end
